-- ==== Sys2Proof/Word.lean ====
section
/-! DEFINITION. The word types of the machine (00_scope.md R6, R10): all values are unsigned. -/

namespace Sys2Proof

/-- An 8-bit value: a general register, a timer, a memory byte, an `nn` immediate (R6, R72). -/
abbrev Byte := BitVec 8

/-- A 16-bit value: `I`, `PC`, a stack entry, an instruction word (R6). -/
abbrev Word := BitVec 16

/-- A 12-bit address field `nnn` (R72). -/
abbrev Addr := BitVec 12

/-- A 4-bit field: the family nibble or the sprite height `n` (R72). -/
abbrev Nibble := BitVec 4

/-- A register number 0..15; `x` and `y` of an instruction (R20, R72). -/
abbrev Reg := Fin 16

/-- A logical key 0x0..0xF (R30). -/
abbrev Key := Fin 16

end Sys2Proof
end

