-- ==== Sys2Proof/Syntax.lean ====
section
/-! DEFINITION. The 34 instructions, one constructor per row of spec/opcode_table.json (30_encoding.md R75), in the table's
order. Operands have the exact range of their fields (R72), so every term is an instruction the encoding admits. -/

namespace Sys2Proof

/-- The instruction set (R75). `x` and `y` are register numbers, `nn` a byte, `nnn` an address, `n` a row count. -/
inductive Instr where
  /-- 00E0 `CLS`, clear the screen (R100). -/
  | cls
  /-- 00EE `RET`, return from subroutine (R101). -/
  | ret
  /-- 1NNN `JP nnn`, unconditional jump (R102). -/
  | jp (nnn : Addr)
  /-- 2NNN `CALL nnn`, call subroutine (R103). -/
  | call (nnn : Addr)
  /-- 3XNN `SE Vx, nn`, skip if equal (R110). -/
  | seImm (x : Reg) (nn : Byte)
  /-- 4XNN `SNE Vx, nn`, skip if different (R111). -/
  | sneImm (x : Reg) (nn : Byte)
  /-- 5XY0 `SE Vx, Vy`, skip if equal (R112). -/
  | seReg (x y : Reg)
  /-- 6XNN `LD Vx, nn`, set register (R120). -/
  | ldImm (x : Reg) (nn : Byte)
  /-- 7XNN `ADD Vx, nn`, add immediate, no flag (R121). -/
  | addImm (x : Reg) (nn : Byte)
  /-- 8XY0 `LD Vx, Vy`, copy register (R122). -/
  | ldReg (x y : Reg)
  /-- 8XY1 `OR Vx, Vy` (R123). -/
  | orReg (x y : Reg)
  /-- 8XY2 `AND Vx, Vy` (R124). -/
  | andReg (x y : Reg)
  /-- 8XY3 `XOR Vx, Vy` (R125). -/
  | xorReg (x y : Reg)
  /-- 8XY4 `ADD Vx, Vy`, carry into VF (R126). -/
  | addReg (x y : Reg)
  /-- 8XY5 `SUB Vx, Vy`, no-borrow into VF (R127). -/
  | subReg (x y : Reg)
  /-- 8XY6 `SHR Vx, Vy`, bit 0 into VF (R128). -/
  | shr (x y : Reg)
  /-- 8XY7 `SUBN Vx, Vy`, no-borrow into VF (R129). -/
  | subnReg (x y : Reg)
  /-- 8XYE `SHL Vx, Vy`, bit 7 into VF (R130). -/
  | shl (x y : Reg)
  /-- 9XY0 `SNE Vx, Vy`, skip if different (R113). -/
  | sneReg (x y : Reg)
  /-- ANNN `LD I, nnn`, set index (R140). -/
  | ldI (nnn : Addr)
  /-- BNNN `JP V0, nnn`, jump with offset (R104). -/
  | jpOffset (nnn : Addr)
  /-- CXNN `RND Vx, nn`, random byte masked by the register (R151). -/
  | rnd (x : Reg) (nn : Byte)
  /-- DXYN `DRW Vx, Vy, n`, draw a sprite (R155). -/
  | drw (x y : Reg) (n : Nibble)
  /-- EX9E `SKP Vx`, skip if key pressed (R160). -/
  | skp (x : Reg)
  /-- EXA1 `SKNP Vx`, skip if key not pressed (R161). -/
  | sknp (x : Reg)
  /-- FX07 `LD Vx, DT`, read delay timer (R170). -/
  | ldVxDT (x : Reg)
  /-- FX0A `LD Vx, K`, wait for a key-down event (R162). -/
  | ldVxK (x : Reg)
  /-- FX15 `LD DT, Vx`, set delay timer (R171). -/
  | ldDTVx (x : Reg)
  /-- FX18 `LD ST, Vx`, set sound timer (R172). -/
  | ldSTVx (x : Reg)
  /-- FX1E `ADD I, Vx` (R141). -/
  | addI (x : Reg)
  /-- FX29 `LD F, Vx`, address of a digit's sprite (R145). -/
  | ldF (x : Reg)
  /-- FX33 `LD B, Vx`, store decimal digits (R144). -/
  | ldB (x : Reg)
  /-- FX55 `LD [I], Vx`, store V0..Vx (R142). -/
  | stRegs (x : Reg)
  /-- FX65 `LD Vx, [I]`, load V0..Vx (R143). -/
  | ldRegs (x : Reg)
deriving DecidableEq, Repr

end Sys2Proof
end

