-- ==== Sys2Proof/Decode.lean ====
section
/-! DEFINITION. The decode function, total on every word (30_encoding.md R74), rejecting by name; the encoder written from
the same formats (R71); and the opcode map (R75) as match and mask. The bit patterns other than 6XNN, 2NNN and 00EE are the
spec's own choice D1 (log 13). -/

namespace Sys2Proof

/-- Why a word is no instruction: the six rows of the table of R76, and a byte list too short to hold a word. The machine
raises `IllegalInstruction` for each of the six; `truncated` cannot reach it, since a fetch always has two bytes. -/
inductive Reject where
  /-- `0NNN` other than 00E0 and 00EE. -/
  | family0
  /-- `5XYn` with `n != 0`. -/
  | family5
  /-- `8XYn` with `n` in 8..0xD or `n = 0xF`. -/
  | family8
  /-- `9XYn` with `n != 0`. -/
  | family9
  /-- `EXnn` with `nn` not 0x9E or 0xA1. -/
  | familyE
  /-- `FXnn` with `nn` not one of the nine function codes. -/
  | familyF
  /-- Fewer than two bytes were given. -/
  | truncated
deriving DecidableEq, Repr

/-- The family nibble `op = w[15:12]` (R72). -/
def opOf (w : Word) : Nibble := w.extractLsb' 12 4

/-- The register field `x = w[11:8]` (R72). -/
def xOf (w : Word) : Reg := (w.extractLsb' 8 4).toFin

/-- The register field `y = w[7:4]` (R72). -/
def yOf (w : Word) : Reg := (w.extractLsb' 4 4).toFin

/-- The field `n = w[3:0]` (R72). -/
def nOf (w : Word) : Nibble := w.extractLsb' 0 4

/-- The field `nn = w[7:0]` (R72). -/
def nnOf (w : Word) : Byte := w.extractLsb' 0 8

/-- The field `nnn = w[11:0]` (R72). -/
def nnnOf (w : Word) : Addr := w.extractLsb' 0 12

/-- Family 0x0: the two fixed words (R74). -/
def decodeFamily0 (w : Word) : Except Reject Instr :=
  if w = 0x00E0 then .ok .cls else if w = 0x00EE then .ok .ret else .error .family0

/-- Family 0x8, by the function code `n` (R74). -/
def decodeFamily8 (w : Word) : Except Reject Instr :=
  match (nOf w).toNat with
  | 0x0 => .ok (.ldReg (xOf w) (yOf w))
  | 0x1 => .ok (.orReg (xOf w) (yOf w))
  | 0x2 => .ok (.andReg (xOf w) (yOf w))
  | 0x3 => .ok (.xorReg (xOf w) (yOf w))
  | 0x4 => .ok (.addReg (xOf w) (yOf w))
  | 0x5 => .ok (.subReg (xOf w) (yOf w))
  | 0x6 => .ok (.shr (xOf w) (yOf w))
  | 0x7 => .ok (.subnReg (xOf w) (yOf w))
  | 0xE => .ok (.shl (xOf w) (yOf w))
  | _ => .error .family8

/-- Family 0xE, by the function code `nn` (R74). -/
def decodeFamilyE (w : Word) : Except Reject Instr :=
  match (nnOf w).toNat with
  | 0x9E => .ok (.skp (xOf w))
  | 0xA1 => .ok (.sknp (xOf w))
  | _ => .error .familyE

/-- Family 0xF, by the function code `nn` (R74). -/
def decodeFamilyF (w : Word) : Except Reject Instr :=
  match (nnOf w).toNat with
  | 0x07 => .ok (.ldVxDT (xOf w))
  | 0x0A => .ok (.ldVxK (xOf w))
  | 0x15 => .ok (.ldDTVx (xOf w))
  | 0x18 => .ok (.ldSTVx (xOf w))
  | 0x1E => .ok (.addI (xOf w))
  | 0x29 => .ok (.ldF (xOf w))
  | 0x33 => .ok (.ldB (xOf w))
  | 0x55 => .ok (.stRegs (xOf w))
  | 0x65 => .ok (.ldRegs (xOf w))
  | _ => .error .familyF

/-- `decode(w)` (R74): one classification of the word alone, used by execution and by the disassembly query (R5). -/
def decode (w : Word) : Except Reject Instr :=
  match (opOf w).toNat with
  | 0x0 => decodeFamily0 w
  | 0x1 => .ok (.jp (nnnOf w))
  | 0x2 => .ok (.call (nnnOf w))
  | 0x3 => .ok (.seImm (xOf w) (nnOf w))
  | 0x4 => .ok (.sneImm (xOf w) (nnOf w))
  | 0x5 => if nOf w = 0 then .ok (.seReg (xOf w) (yOf w)) else .error .family5
  | 0x6 => .ok (.ldImm (xOf w) (nnOf w))
  | 0x7 => .ok (.addImm (xOf w) (nnOf w))
  | 0x8 => decodeFamily8 w
  | 0x9 => if nOf w = 0 then .ok (.sneReg (xOf w) (yOf w)) else .error .family9
  | 0xA => .ok (.ldI (nnnOf w))
  | 0xB => .ok (.jpOffset (nnnOf w))
  | 0xC => .ok (.rnd (xOf w) (nnOf w))
  | 0xD => .ok (.drw (xOf w) (yOf w) (nOf w))
  | 0xE => decodeFamilyE w
  | _ => decodeFamilyF w

/-- The word whose high byte comes first in memory (R54, R55). -/
def wordOfBytes (hi lo : Byte) : Word := hi ++ lo

/-- Decoding from a byte stream, high byte first (R70): the instruction and the bytes after it. -/
def decodeBytes : List Byte → Except Reject (Instr × List Byte)
  | hi :: lo :: rest =>
    match decode (wordOfBytes hi lo) with
    | .ok i => .ok (i, rest)
    | .error e => .error e
  | _ => .error .truncated

/-- The instruction's number `w` as the two bytes that store it, high byte first (R54). -/
def tableBytes (nbits w : Nat) : List Byte :=
  let n := w % 2 ^ nbits
  [BitVec.ofNat 8 (n / 256), BitVec.ofNat 8 n]

/-- What the decoder reads from an instruction of the opcode table given as a number, bit 0 the least significant bit. -/
def decodeTableWord (nbits w : Nat) : Option Instr :=
  match decodeBytes (tableBytes nbits w) with
  | .ok (i, _) => some i
  | .error _ => none

/-- The register number as a 4-bit field. -/
def regField (x : Reg) : Nibble := BitVec.ofFin x

/-- Format `NNN` (R71). -/
def encodeNNN (op : Nibble) (nnn : Addr) : Word := op ++ nnn

/-- Formats `XNN` and `XFF` (R71). -/
def encodeXNN (op : Nibble) (x : Reg) (nn : Byte) : Word := op ++ regField x ++ nn

/-- Formats `XYF` and `XYN` (R71). -/
def encodeXYN (op : Nibble) (x y : Reg) (n : Nibble) : Word := op ++ regField x ++ regField y ++ n

/-- The word of an instruction (R71, R75). -/
def encode : Instr → Word
  | .cls => 0x00E0
  | .ret => 0x00EE
  | .jp nnn => encodeNNN 0x1 nnn
  | .call nnn => encodeNNN 0x2 nnn
  | .seImm x nn => encodeXNN 0x3 x nn
  | .sneImm x nn => encodeXNN 0x4 x nn
  | .seReg x y => encodeXYN 0x5 x y 0x0
  | .ldImm x nn => encodeXNN 0x6 x nn
  | .addImm x nn => encodeXNN 0x7 x nn
  | .ldReg x y => encodeXYN 0x8 x y 0x0
  | .orReg x y => encodeXYN 0x8 x y 0x1
  | .andReg x y => encodeXYN 0x8 x y 0x2
  | .xorReg x y => encodeXYN 0x8 x y 0x3
  | .addReg x y => encodeXYN 0x8 x y 0x4
  | .subReg x y => encodeXYN 0x8 x y 0x5
  | .shr x y => encodeXYN 0x8 x y 0x6
  | .subnReg x y => encodeXYN 0x8 x y 0x7
  | .shl x y => encodeXYN 0x8 x y 0xE
  | .sneReg x y => encodeXYN 0x9 x y 0x0
  | .ldI nnn => encodeNNN 0xA nnn
  | .jpOffset nnn => encodeNNN 0xB nnn
  | .rnd x nn => encodeXNN 0xC x nn
  | .drw x y n => encodeXYN 0xD x y n
  | .skp x => encodeXNN 0xE x 0x9E
  | .sknp x => encodeXNN 0xE x 0xA1
  | .ldVxDT x => encodeXNN 0xF x 0x07
  | .ldVxK x => encodeXNN 0xF x 0x0A
  | .ldDTVx x => encodeXNN 0xF x 0x15
  | .ldSTVx x => encodeXNN 0xF x 0x18
  | .addI x => encodeXNN 0xF x 0x1E
  | .ldF x => encodeXNN 0xF x 0x29
  | .ldB x => encodeXNN 0xF x 0x33
  | .stRegs x => encodeXNN 0xF x 0x55
  | .ldRegs x => encodeXNN 0xF x 0x65

/-- The bytes of an instruction in memory order, high byte first (R55). -/
def encodeBytes (i : Instr) : List Byte :=
  [(encode i).extractLsb' 8 8, (encode i).extractLsb' 0 8]

/-- The columns "match" and "mask" of the opcode map (R75), in the table's order: `w` is in a row when `w & mask = match`. -/
def opcodeRows : List (Word × Word) :=
  [(0x00E0, 0xFFFF), (0x00EE, 0xFFFF), (0x1000, 0xF000), (0x2000, 0xF000), (0x3000, 0xF000), (0x4000, 0xF000)] ++
  [(0x5000, 0xF00F), (0x6000, 0xF000), (0x7000, 0xF000), (0x8000, 0xF00F), (0x8001, 0xF00F), (0x8002, 0xF00F)] ++
  [(0x8003, 0xF00F), (0x8004, 0xF00F), (0x8005, 0xF00F), (0x8006, 0xF00F), (0x8007, 0xF00F), (0x800E, 0xF00F)] ++
  [(0x9000, 0xF00F), (0xA000, 0xF000), (0xB000, 0xF000), (0xC000, 0xF000), (0xD000, 0xF000), (0xE09E, 0xF0FF)] ++
  [(0xE0A1, 0xF0FF), (0xF007, 0xF0FF), (0xF00A, 0xF0FF), (0xF015, 0xF0FF), (0xF018, 0xF0FF), (0xF01E, 0xF0FF)] ++
  [(0xF029, 0xF0FF), (0xF033, 0xF0FF), (0xF055, 0xF0FF), (0xF065, 0xF0FF)]

/-- The number of an instruction's row in the opcode map (R75), counted from 0. -/
def rowOf : Instr → Nat
  | .cls => 0
  | .ret => 1
  | .jp _ => 2
  | .call _ => 3
  | .seImm _ _ => 4
  | .sneImm _ _ => 5
  | .seReg _ _ => 6
  | .ldImm _ _ => 7
  | .addImm _ _ => 8
  | .ldReg _ _ => 9
  | .orReg _ _ => 10
  | .andReg _ _ => 11
  | .xorReg _ _ => 12
  | .addReg _ _ => 13
  | .subReg _ _ => 14
  | .shr _ _ => 15
  | .subnReg _ _ => 16
  | .shl _ _ => 17
  | .sneReg _ _ => 18
  | .ldI _ => 19
  | .jpOffset _ => 20
  | .rnd _ _ => 21
  | .drw _ _ _ => 22
  | .skp _ => 23
  | .sknp _ => 24
  | .ldVxDT _ => 25
  | .ldVxK _ => 26
  | .ldDTVx _ => 27
  | .ldSTVx _ => 28
  | .addI _ => 29
  | .ldF _ => 30
  | .ldB _ => 31
  | .stRegs _ => 32
  | .ldRegs _ => 33

/-- The word is in the row (R75). -/
def inRow (w : Word) (row : Word × Word) : Bool := w &&& row.2 == row.1

end Sys2Proof
end

