-- ==== Sys2Proof/Config.lean ====
section
/-! DEFINITION. What is fixed before the machine starts (00_scope.md R7 to R9; 10_state.md R32) and the two free values: the
random byte (44_random.md R150) and the interleaving of the agents' steps (60_exceptions.md R230 to R233). -/

namespace Sys2Proof

/-- `SHIFT_SRC` (R7): the register that 8XY6 and 8XYE shift. -/
inductive ShiftSrc where
  | vx
  | vy
deriving DecidableEq, Repr

/-- `JUMP_REG` (R7): the register BNNN adds. -/
inductive JumpReg where
  | v0
  | vx
deriving DecidableEq, Repr

/-- `DRAW_EDGE` (R7): what DXYN does with pixels past the right or bottom edge. -/
inductive DrawEdge where
  | wrap
  | clip
deriving DecidableEq, Repr

/-- `LOAD_BASE` (R8, R255): 0x200 standard, 0x600 for the ETI variant; no other value exists. -/
inductive LoadBase where
  | standard
  | eti
deriving DecidableEq, Repr

/-- The address of a load base (R8). -/
def LoadBase.addr : LoadBase → Nat
  | .standard => 0x200
  | .eti => 0x600

/-- The configuration tuple (R32): every parameter of rules R7, R8 and R9 but the random source. It is chosen at
construction and no step changes it; DESIGN CHOICE, safe (log 1): State carries it, so a statement about every state
holds for every value of every parameter. -/
structure Config where
  /-- `SHIFT_SRC` (R7). -/
  shiftSrc : ShiftSrc
  /-- `LOADSTORE_INC` (R7). -/
  loadStoreInc : Bool
  /-- `JUMP_REG` (R7). -/
  jumpReg : JumpReg
  /-- `DRAW_EDGE` (R7). -/
  drawEdge : DrawEdge
  /-- `LOAD_BASE` (R8). -/
  loadBase : LoadBase
  /-- `IMAGE` (R8): the retained program image, kept outside the memory (R34). -/
  image : List Byte
  /-- `FONT_BASE` (R9): the address of the 16 digit sprites. -/
  fontBase : Nat
  /-- `FONT_DATA` (R9): the 80 bytes of the digit sprites. -/
  fontData : Vector Byte 80
  /-- `TIMERS_WHILE_PAUSED` (R9, R213). -/
  timersWhilePaused : Bool
  /-- `CPU_RATE` (R9), instructions per second; no rule depends on it. R9 says "positive" and gives no number type: a natural
  number is the model's choice (DESIGN CHOICE, safe; log 32), so that a fractional rate cannot be written. -/
  cpuRate : Nat
deriving DecidableEq, Repr

/-- `draw_byte()` (R150): the byte of the n-th executed CXNN. A FREE VALUE: it has no body, so nothing can be proved of it
and a statement holds for every sequence of draws (log 5, safe). -/
opaque Config.randomByte : Nat → Byte

namespace Machine

/-- The commands of the host (R227). -/
inductive Command where
  | pause
  | play
  /-- The command `step`. -/
  | single
  | restart
deriving DecidableEq, Repr

/-- One step of one agent (R230), as a schedule gives it. -/
inductive Event where
  /-- The CPU is offered a step (R200, R226). -/
  | cpu
  /-- The timer is offered a tick (R211, R213). -/
  | tick
  /-- `KeyDown(k)` (R216). -/
  | keyDown (k : Key)
  /-- `KeyUp(k)` (R216). -/
  | keyUp (k : Key)
  /-- A command of the host (R227). -/
  | command (c : Command)
deriving DecidableEq, Repr, Inhabited

end Machine

/-- The n-th of the agents' steps where nothing is known of them (60_exceptions.md R233). A FREE VALUE: it has no body, so a
statement holds for every endless interleaving of CPU steps, ticks, key events and commands (log 4, safe). -/
opaque Config.comingEvent : Nat → Machine.Event

end Sys2Proof
end

