-- ==== Sys2Proof/Machine/Display.lean ====
section
/-! DEFINITION. The display device: the framebuffer and its two operations `clear` and `draw` (60_exceptions.md R220,
45_draw.md R156). -/

namespace Sys2Proof.Machine

/-- `FB` (10_state.md R29): 32 rows of 64 bits, row 0 at the top, column 0 at the left (orientation: G8, log 23). -/
abbrev Framebuffer := Vector (Vector Bool 64) 32

/-- A position of the framebuffer: row, column. -/
abbrev Pixel := Fin 32 × Fin 64

/-- `clear()`: every bit 0 (R100, R220). -/
def Framebuffer.blank : Framebuffer := Vector.replicate 32 (Vector.replicate 64 false)

/-- `FB[r][c]`. -/
def Framebuffer.pixel (fb : Framebuffer) (p : Pixel) : Bool := (fb[p.1])[p.2]

/-- `FB[r][c] <- FB[r][c] ^ 1` (R156). -/
def Framebuffer.flip (fb : Framebuffer) (p : Pixel) : Framebuffer :=
  fb.set p.1 ((fb[p.1]).set p.2 (!Framebuffer.pixel fb p))

/-- Where a sprite pixel at row `py`, column `px` lands (R156): wrapped on both axes, or dropped past an edge. -/
def placePixel (edge : DrawEdge) (py px : Nat) : Option Pixel :=
  match edge with
  | .wrap => some (Fin.ofNat 32 py, Fin.ofNat 64 px)
  | .clip => if h : py < 32 ∧ px < 64 then some (⟨py, h.1⟩, ⟨px, h.2⟩) else none

/-- The positions of the set pixels of one sprite row byte drawn at row `py` from column `x0`; bit `7 - c` is column `c`
(R156; G9, log 23). -/
def rowPixels (edge : DrawEdge) (x0 py : Nat) (b : Byte) : List Pixel :=
  [0, 1, 2, 3, 4, 5, 6, 7].filterMap fun c => if b.getLsbD (7 - c) then placePixel edge py (x0 + c) else none

/-- The positions of all set, undropped pixels of a sprite, rows downward from `y0` (R156). -/
def spritePixels (edge : DrawEdge) (x0 y0 : Nat) (rows : List Byte) : List Pixel :=
  match rows with
  | [] => []
  | b :: rest => rowPixels edge x0 y0 b ++ spritePixels edge x0 (y0 + 1) rest

/-- Flips the listed pixels in turn; the flag is set when a flipped pixel was set (R156). -/
def flipPixels (fb : Framebuffer) (collided : Bool) (ps : List Pixel) : Framebuffer × Bool :=
  match ps with
  | [] => (fb, collided)
  | p :: rest => flipPixels (Framebuffer.flip fb p) (collided || Framebuffer.pixel fb p) rest

/-- `draw(x0, y0, rows) -> collided` (R156): the new framebuffer and the collision. -/
def Framebuffer.draw (edge : DrawEdge) (fb : Framebuffer) (x0 y0 : Nat) (rows : List Byte) : Framebuffer × Bool :=
  flipPixels fb false (spritePixels edge x0 y0 rows)

end Sys2Proof.Machine
end

