-- ==== Sys2Proof/Machine/Boot.lean ====
section
/-! DEFINITION. The reset contents of the memory (10_state.md R38), the default font (R37) and the configuration of
`State.reset`. -/

namespace Sys2Proof.Machine

/-- The default `FONT_DATA` table (R37): 16 digits of 5 rows, the glyph in the high nibble. PRESUMED by the spec itself from
general knowledge (G7, D12; log 20, unsafe only for a claim about what a digit looks like). -/
def fontBytes : List Byte :=
  [0xF0, 0x90, 0x90, 0x90, 0xF0, 0x20, 0x60, 0x20, 0x20, 0x70, 0xF0, 0x10, 0xF0, 0x80, 0xF0, 0xF0, 0x10, 0xF0, 0x10, 0xF0] ++
  [0x90, 0x90, 0xF0, 0x10, 0x10, 0xF0, 0x80, 0xF0, 0x10, 0xF0, 0xF0, 0x80, 0xF0, 0x90, 0xF0, 0xF0, 0x10, 0x20, 0x40, 0x40] ++
  [0xF0, 0x90, 0xF0, 0x90, 0xF0, 0xF0, 0x90, 0xF0, 0x10, 0xF0, 0xF0, 0x90, 0xF0, 0x90, 0x90, 0xE0, 0x90, 0xE0, 0x90, 0xE0] ++
  [0xF0, 0x80, 0x80, 0x80, 0xF0, 0xE0, 0x90, 0x90, 0x90, 0xE0, 0xF0, 0x80, 0xF0, 0x80, 0xF0, 0xF0, 0x80, 0xF0, 0x80, 0x80]

/-- `fontBytes` as the 80 bytes of a configuration. -/
def defaultFont : Vector Byte 80 := ⟨fontBytes.toArray, by decide⟩

/-- The configuration `State.reset` is built from: the conventions of 95_test_vectors.md (`LOAD_BASE = 0x200`,
`FONT_BASE = 0x050`, `SHIFT_SRC = VX`, `LOADSTORE_INC = false`, `JUMP_REG = V0`, `DRAW_EDGE = WRAP`), the defaults of R9, and
the empty image (R255). DESIGN CHOICE, unsafe for a statement that rests on one of these values (log 2). -/
def conventionalConfig : Config where
  shiftSrc := .vx
  loadStoreInc := false
  jumpReg := .v0
  drawEdge := .wrap
  loadBase := .standard
  image := []
  fontBase := 0x050
  fontData := defaultFont
  timersWhilePaused := true
  cpuRate := 1

/-- The byte at address `a` after reset (R38): font, then image, then zero. The one definition of what an address that no
write has changed reads as; zero outside font and image is the spec's decision D20 (log 3, unsafe). -/
def resetByte (c : Config) (a : Nat) : Byte :=
  if h : c.fontBase ≤ a ∧ a < c.fontBase + 80 then c.fontData[a - c.fontBase]'(by omega)
  else if c.loadBase.addr ≤ a then (c.image[a - c.loadBase.addr]?).getD 0
  else 0

end Sys2Proof.Machine
end

