-- ==== Sys2Proof/Machine/Memory.lean ====
section
/-! DEFINITION. The memory `MEM` (20_memory.md R50 to R57): a list of the addresses whose byte differs from the reset contents,
in one canonical form (log 6). The range check of R52 and R53 is made by the instructions before they come here. -/

namespace Sys2Proof.Machine

/-- The bytes that differ from the reset contents: addresses strictly rising, no entry equal to `resetByte`. -/
abbrev Memory := List Host.Cell

/-- `MEM[a]` (R52): the listed byte, or the reset contents. -/
def Memory.read (c : Config) (m : Memory) (a : Nat) : Byte :=
  match m with
  | [] => resetByte c a
  | cell :: rest => if cell.1 = a then cell.2 else Memory.read c rest a

/-- The list with the byte at `a` in front of `rest`, unless it is what an unlisted address reads as. -/
def Memory.cons (c : Config) (a : Nat) (b : Byte) (rest : Memory) : Memory :=
  if b = resetByte c a then rest else (a, b) :: rest

/-- `MEM[a] <- b` (R53), keeping the canonical form. -/
def Memory.write (c : Config) (m : Memory) (a : Nat) (b : Byte) : Memory :=
  match m with
  | [] => Memory.cons c a b []
  | cell :: rest =>
    if a < cell.1 then Memory.cons c a b (cell :: rest)
    else if cell.1 = a then Memory.cons c a b rest
    else cell :: Memory.write c rest a b

/-- The bytes at `a`, `a + 1`, ..., `a + n - 1` (R60). -/
def Memory.readBytes (c : Config) (m : Memory) (a : Nat) (n : Nat) : List Byte :=
  match n with
  | 0 => []
  | k + 1 => Memory.read c m a :: Memory.readBytes c m (a + 1) k

/-- Writing bytes at ascending addresses from `a` (R55, R57). -/
def Memory.writeBytes (c : Config) (m : Memory) (a : Nat) (bs : List Byte) : Memory :=
  match bs with
  | [] => m
  | b :: rest => Memory.writeBytes c (Memory.write c m a b) (a + 1) rest

/-- Every listed address is above `lo`, in the 4096 bytes (R50), rising, and its byte is not the unlisted one. -/
def Memory.wfFrom (c : Config) (lo : Nat) (m : Memory) : Bool :=
  match m with
  | [] => true
  | cell :: rest =>
    decide (lo ≤ cell.1) && decide (cell.1 < 4096) && !(cell.2 == resetByte c cell.1) && Memory.wfFrom c (cell.1 + 1) rest

/-- The canonical form holds. -/
def Memory.wf (c : Config) (m : Memory) : Bool := Memory.wfFrom c 0 m

end Sys2Proof.Machine
end

