-- ==== Sys2Proof/Machine/State.lean ====
section
/-! DEFINITION. The whole state of `CORE` (10_state.md R20 to R36) as plain data, the order of its agents'
steps (60_exceptions.md R231), the outcomes' reasons, and the state after reset (R36, 70_reset_and_hazards.md R251). -/

namespace Sys2Proof.Machine

/-- The four faults of the machine (60_exceptions.md R201). Raising one is a NEXT state whose run state is
`halted` (R205, log 7), never an outcome `fault` of a step. -/
inductive CoreFault where
  /-- A word that matches no row of the opcode map; the address and the word (R202). -/
  | illegalInstruction (address rawBytes : Word)
  /-- CALL with 16 entries in use (R203). -/
  | stackOverflow (address : Word)
  /-- RET with no entry in use (R204). -/
  | stackUnderflow (address : Word)
  /-- A byte above 0xFFF; `addr` is the lowest offending address (R206). -/
  | addressOutOfRange (address addr : Word)
deriving DecidableEq, Repr

/-- Where a completed get-key wait leads (R31). -/
inductive Resume where
  | running
  | paused
deriving DecidableEq, Repr

/-- `RS` (R31, R225). -/
inductive RunState where
  /-- CPU steps occur. -/
  | running
  /-- No CPU step until `play` or `step`. -/
  | paused
  /-- Exactly one CPU step will occur, then `paused`. -/
  | steppingOne
  /-- An FX0A is pending: the register it writes and where it resumes. -/
  | awaitingKey (x : Reg) (resume : Resume)
  /-- A fault occurred; only `restart` leaves. -/
  | halted (fault : CoreFault)
deriving DecidableEq, Repr

/-- The total order of the agents' coming steps (R231), without end (R233: "A model should admit every interleaving"; log 4):
given steps, and then either a pattern repeated for ever or steps of which nothing is known. -/
inductive Schedule where
  /-- `e`, and then `rest`. -/
  | cons (e : Event) (rest : Schedule)
  /-- `e`, then `es`, and then the same again, for ever. -/
  | repeating (e : Event) (es : List Event)
  /-- The free value `Config.comingEvent` from its `n`-th event on: any endless interleaving. -/
  | free (n : Nat)
deriving DecidableEq, Repr

/-- Why the model answers `fault`. Both are raised by `load` alone, when a machine is to be constructed; no step and no
instruction raises one. -/
inductive Fault where
  /-- Raised by `load` when the image fails a check of R255 ("rejected before any execution begins", R78). Safe: no
  machine exists. -/
  | imageRejected
  /-- Raised by `load` when `FONT_BASE` or `CPU_RATE` is outside its range (R9); that this is
  rejected at construction is the model's choice (DESIGN CHOICE, log 8). Safe: no machine exists. -/
  | parameterOutOfRange
deriving DecidableEq, Repr

/-- Why the model answers `refused`. -/
inductive Refusal where
  /-- An instruction without a meaning, by its mnemonic; would be raised by `exec`'s arm. Safe: the model stops. No arm
  raises it: every instruction has its meaning. -/
  | notModelled (mnemonic : String)
deriving DecidableEq, Repr

/-- Everything the spec gives the machine, one home for each piece (10_state.md), the configuration it was built with (R32,
log 1), and two fields of the model's own: `draws` (log 5) and `schedule` (log 4). -/
structure State where
  /-- `V[0]` .. `V[15]` (R20); `V[15]` is the flag `VF` (R21). -/
  v : Vector Byte 16
  /-- `I` (R23). -/
  index : Word
  /-- `PC` (R22). -/
  pc : Word
  /-- `SP`, the number of valid stack entries, 0..16 (R25). -/
  sp : Fin 17
  /-- `STACK[0]` .. `STACK[15]` (R24). -/
  stack : Vector Word 16
  /-- `DT` (R26). -/
  dt : Byte
  /-- `ST` (R27). -/
  st : Byte
  /-- `MEM` (R28), over the reset contents of `config`. -/
  mem : Memory
  /-- `FB` (R29). -/
  fb : Framebuffer
  /-- `KEY[0]` .. `KEY[15]` (R30). -/
  keys : Vector Bool 16
  /-- `RS` (R31). -/
  rs : RunState
  /-- The configuration, with the retained `IMAGE` (R32, R34); no step changes it. -/
  config : Config
  /-- The model's own: how many random bytes have been drawn (R150). -/
  draws : Nat
  /-- The model's own: the coming steps of the agents in their total order (R231, R233). -/
  schedule : Schedule
deriving DecidableEq, Repr

/-- The state after construction with a configuration (R251). The zeros and `running` that D00 does not give are the
spec's decisions D20 and D31 (log 3, unsafe); that only the CPU moves is the model's choice (log 4, unsafe). -/
def State.initial (c : Config) : State where
  v := Vector.replicate 16 0
  index := 0
  pc := BitVec.ofNat 16 c.loadBase.addr
  sp := 0
  stack := Vector.replicate 16 0
  dt := 0
  st := 0
  mem := []
  fb := Framebuffer.blank
  keys := Vector.replicate 16 false
  rs := .running
  config := c
  draws := 0
  schedule := .repeating .cpu []

/-- The machine right after reset, with the configuration of log 2. -/
def State.reset : State := State.initial conventionalConfig

end Sys2Proof.Machine
end

