-- ==== Sys2Proof/Machine/Ops.lean ====
section
/-! DEFINITION. The named operations over registers, program counter, stack and memory, and the one shared operation that
raises a fault (60_exceptions.md R205). There is no return from a fault (R209): only `restart` leaves `halted`. -/

namespace Sys2Proof.Machine

/-- What an instruction answers. -/
abbrev Result := Host.Outcome State Fault Refusal

/-- `V[x]` (R20). -/
def State.readV (s : State) (x : Reg) : Byte := s.v[x]

/-- `V[x] <- b` (R20); no register is hard-wired. -/
def State.setV (s : State) (x : Reg) (b : Byte) : State := { s with v := s.v.set x b }

/-- `I <- w` (R23). -/
def State.setIndex (s : State) (w : Word) : State := { s with index := w }

/-- `PC <- w` (R22). -/
def State.setPc (s : State) (w : Word) : State := { s with pc := w }

/-- `DT <- b` (R26). -/
def State.setDt (s : State) (b : Byte) : State := { s with dt := b }

/-- `ST <- b` (R27). -/
def State.setSt (s : State) (b : Byte) : State := { s with st := b }

/-- The framebuffer replaced (R29). -/
def State.setFb (s : State) (fb : Framebuffer) : State := { s with fb := fb }

/-- `RS <- r` (R31). -/
def State.setRs (s : State) (r : RunState) : State := { s with rs := r }

/-- `KEY[k] <- b` (R30). -/
def State.setKey (s : State) (k : Key) (b : Bool) : State := { s with keys := s.keys.set k b }

/-- `KEY[k]` (R217). -/
def State.keyPressed (s : State) (k : Key) : Bool := s.keys[k]

/-- `next = (this + 2) mod 65536` (R11, R22). -/
def State.next (s : State) : Word := s.pc + 2

/-- `PC <- next`. -/
def State.advance (s : State) : State := s.setPc s.next

/-- A skip (R114): `PC <- (this + 4) mod 65536` when the condition holds, else `PC <- next`. -/
def State.skipIf (s : State) (condition : Bool) : State :=
  if condition then s.setPc (s.pc + 4) else s.advance

/-- `raise fault` (R205): nothing changes but the run state; the `PC` stays at the faulting instruction. The one way a fault
is entered (log 7). -/
def State.raise (s : State) (fault : CoreFault) : Result := .next (s.setRs (.halted fault))

/-- The stack is full (R25). -/
def State.stackFull (s : State) : Bool := s.sp.val == 16

/-- The stack is empty (R25). -/
def State.stackEmpty (s : State) : Bool := s.sp.val == 0

/-- `STACK[SP] <- w; SP <- SP + 1` (R103), on a stack that is not full. -/
def State.push (s : State) (w : Word) : State :=
  if h : s.sp.val < 16 then { s with stack := s.stack.set s.sp.val w, sp := ⟨s.sp.val + 1, by omega⟩ } else s

/-- `STACK[SP - 1]`, the most recent entry (R25), on a stack that is not empty. -/
def State.top (s : State) : Word := s.stack[s.sp.val - 1]'(by omega)

/-- `SP <- SP - 1` (R101); the popped entry keeps its content (R25). -/
def State.pop (s : State) : State := { s with sp := ⟨s.sp.val - 1, by omega⟩ }

/-- `MEM[a]` (R52). -/
def State.byteAt (s : State) (a : Nat) : Byte := Memory.read s.config s.mem a

/-- `MemRead(a + k, 1)` for `k` in 0..n-1 (R52). -/
def State.bytesAt (s : State) (a n : Nat) : List Byte := Memory.readBytes s.config s.mem a n

/-- `MemWrite(a + k, 1, bs[k])` for each byte (R53). -/
def State.storeBytes (s : State) (a : Nat) (bs : List Byte) : State :=
  { s with mem := Memory.writeBytes s.config s.mem a bs }

/-- `MEM[a] ++ MEM[a + 1]`, the high byte first (R54). -/
def State.wordAt (s : State) (a : Nat) : Word := s.byteAt a ++ s.byteAt (a + 1)

/-- The whole range of `n` bytes from `I` lies in 0x000..0xFFF (R58); no bytes, no check (R155). -/
def State.rangeOk (s : State) (n : Nat) : Bool := n == 0 || decide (s.index.toNat + n ≤ 4096)

/-- `max(I, 0x1000)`: the lowest byte address above 0xFFF of a range from `I` that passes it (R58). -/
def State.lowestOffending (s : State) : Word := if s.index.toNat < 0x1000 then 0x1000 else s.index

/-- Runs `act` when the `n` bytes from `I` exist, else raises `AddressOutOfRange` before any effect (R58). -/
def State.withRange (s : State) (n : Nat) (act : Result) : Result :=
  if s.rangeOk n then act else s.raise (.addressOutOfRange s.pc s.lowestOffending)

/-- Instruction fetch (R54): the word at `PC`, or the fault of a byte above 0xFFF. -/
def State.fetch (s : State) : Except CoreFault Word :=
  if s.pc.toNat ≤ 0xFFE then .ok (s.wordAt s.pc.toNat)
  else .error (.addressOutOfRange s.pc (if s.pc.toNat ≤ 0xFFF then s.pc + 1 else s.pc))

end Sys2Proof.Machine
end

