-- ==== Sys2Proof/Machine/Operands.lean ====
section
/-! DEFINITION. The operand forms (30_encoding.md R72, R73; 20_memory.md R60): registers chosen by a quirk, low nibbles, the
font address, the register block, the decimal digits. -/

namespace Sys2Proof.Machine

/-- `zext_16(nnn)` (R73). -/
def zextAddr (nnn : Addr) : Word := nnn.setWidth 16

/-- `zext_16` of a byte (R73). -/
def zextByte (b : Byte) : Word := b.setWidth 16

/-- The number of `VF` (R21). -/
def regVF : Reg := 15

/-- The register a shift reads: `SHIFT_SRC` (R128, R130). -/
def State.shiftSource (s : State) (x y : Reg) : Byte :=
  match s.config.shiftSrc with
  | .vx => s.readV x
  | .vy => s.readV y

/-- `nnn[11:8]`, the register BNNN names when `JUMP_REG = VX` (R104). -/
def topNibble (nnn : Addr) : Reg := (nnn.extractLsb' 8 4).toFin

/-- The register BNNN adds: `JUMP_REG` (R104). -/
def State.jumpOffset (s : State) (nnn : Addr) : Byte :=
  match s.config.jumpReg with
  | .v0 => s.readV 0
  | .vx => s.readV (topNibble nnn)

/-- `V[x][3:0]`: the key or digit a register names (R163, R145; D12, D13). -/
def lowNibble (b : Byte) : Fin 16 := (b.extractLsb' 0 4).toFin

/-- `FONT_BASE + 5 * d` (R145). -/
def State.fontAddress (s : State) (d : Fin 16) : Word := BitVec.ofNat 16 (s.config.fontBase + 5 * d.val)

/-- The bytes `V[0]` .. `V[x]` that FX55 stores (R142). -/
def State.registerBlock (s : State) (x : Reg) : List Byte := s.v.toList.take (x.val + 1)

/-- `V[k] <- MEM[I + k]` for `k` in 0..x; registers above `x` keep their values (R143). -/
def State.loadRegisterBlock (s : State) (x : Reg) : State :=
  { s with v := Vector.ofFn fun k => if k ≤ x then s.byteAt (s.index.toNat + k.val) else s.v[k] }

/-- `I` after FX55 and FX65 (R142, R143): past the block when `LOADSTORE_INC` (the amount is D10), else unchanged. -/
def State.indexAfterBlock (s : State) (x : Reg) : Word :=
  if s.config.loadStoreInc then s.index + BitVec.ofNat 16 (x.val + 1) else s.index

/-- Hundreds, tens and ones of a byte (R144; order D11). -/
def decimalDigits (b : Byte) : List Byte :=
  [BitVec.ofNat 8 (b.toNat / 100), BitVec.ofNat 8 (b.toNat / 10 % 10), BitVec.ofNat 8 (b.toNat % 10)]

/-- The sprite column of DXYN's origin, `V[x] mod 64` (R155). -/
def spriteColumn (b : Byte) : Nat := b.toNat % 64

/-- The sprite row of DXYN's origin, `V[y] mod 32` (R155). -/
def spriteRow (b : Byte) : Nat := b.toNat % 32

end Sys2Proof.Machine
end

