-- ==== Sys2Proof/Machine/Flags.lean ====
section
/-! DEFINITION. Every flag computation, all into `VF` (10_state.md R21), and the order of the two writes (42_arithmetic.md
R132). -/

namespace Sys2Proof.Machine

/-- A flag as the byte `VF` holds: 1 or 0 (R21). -/
def flagByte (f : Bool) : Byte := if f then 1 else 0

/-- The carry of 8XY4: the unsigned sum exceeds 255 (R126). -/
def carryOut (a b : Byte) : Bool := decide (a.toNat + b.toNat > 255)

/-- No borrow in `a - b` (R127, R129): `a >= b`. -/
def noBorrow (a b : Byte) : Bool := decide (b.toNat ≤ a.toNat)

/-- The bit a right shift drops (R128). -/
def shiftedOutRight (b : Byte) : Bool := b.getLsbD 0

/-- The bit a left shift drops (R130). -/
def shiftedOutLeft (b : Byte) : Bool := b.getLsbD 7

/-- `VF <- f` (R21). -/
def State.setFlag (s : State) (f : Bool) : State := s.setV regVF (flagByte f)

/-- The result to `V[x]`, then the flag to `VF` (R132): with `x = 0xF` the flag stays (D4, log 16). -/
def State.setResultFlag (s : State) (x : Reg) (result : Byte) (f : Bool) : State := (s.setV x result).setFlag f

end Sys2Proof.Machine
end

