-- ==== Sys2Proof/Machine/Arithmetic.lean ====
section
/-! DEFINITION. Register arithmetic and logic (42_arithmetic.md R120 to R132). None of these can fault. -/

namespace Sys2Proof.Machine

/-- 6XNN `LD Vx, nn` (R120). -/
def execLdImm (x : Reg) (nn : Byte) (s : State) : Result := .next (s.setV x nn).advance

/-- 7XNN `ADD Vx, nn` (R121): no flag. -/
def execAddImm (x : Reg) (nn : Byte) (s : State) : Result := .next (s.setV x (s.readV x + nn)).advance

/-- 8XY0 `LD Vx, Vy` (R122). -/
def execLdReg (x y : Reg) (s : State) : Result := .next (s.setV x (s.readV y)).advance

/-- 8XY1 `OR Vx, Vy` (R123): no flag (D5). -/
def execOrReg (x y : Reg) (s : State) : Result := .next (s.setV x (s.readV x ||| s.readV y)).advance

/-- 8XY2 `AND Vx, Vy` (R124): no flag (D5). -/
def execAndReg (x y : Reg) (s : State) : Result := .next (s.setV x (s.readV x &&& s.readV y)).advance

/-- 8XY3 `XOR Vx, Vy` (R125): no flag (D5). -/
def execXorReg (x y : Reg) (s : State) : Result := .next (s.setV x (s.readV x ^^^ s.readV y)).advance

/-- 8XY4 `ADD Vx, Vy` (R126). -/
def execAddReg (x y : Reg) (s : State) : Result :=
  .next (s.setResultFlag x (s.readV x + s.readV y) (carryOut (s.readV x) (s.readV y))).advance

/-- 8XY5 `SUB Vx, Vy` (R127). -/
def execSubReg (x y : Reg) (s : State) : Result :=
  .next (s.setResultFlag x (s.readV x - s.readV y) (noBorrow (s.readV x) (s.readV y))).advance

/-- 8XY6 `SHR Vx, Vy` (R128). -/
def execShr (x y : Reg) (s : State) : Result :=
  .next (s.setResultFlag x (s.shiftSource x y >>> 1) (shiftedOutRight (s.shiftSource x y))).advance

/-- 8XY7 `SUBN Vx, Vy` (R129). -/
def execSubnReg (x y : Reg) (s : State) : Result :=
  .next (s.setResultFlag x (s.readV y - s.readV x) (noBorrow (s.readV y) (s.readV x))).advance

/-- 8XYE `SHL Vx, Vy` (R130). -/
def execShl (x y : Reg) (s : State) : Result :=
  .next (s.setResultFlag x (s.shiftSource x y <<< 1) (shiftedOutLeft (s.shiftSource x y))).advance

end Sys2Proof.Machine
end

