-- ==== Sys2Proof/Machine/ControlFlow.lean ====
section
/-! DEFINITION. Control flow: CLS, RET, JP, CALL, JP V0 (40_control_flow.md R100 to R105). -/

namespace Sys2Proof.Machine

/-- 00E0 `CLS` (R100). -/
def execCls (s : State) : Result := .next (s.setFb Framebuffer.blank).advance

/-- 00EE `RET` (R101). -/
def execRet (s : State) : Result :=
  if s.stackEmpty then s.raise (.stackUnderflow s.pc) else .next (s.pop.setPc s.top)

/-- 1NNN `JP nnn` (R102). -/
def execJp (nnn : Addr) (s : State) : Result := .next (s.setPc (zextAddr nnn))

/-- 2NNN `CALL nnn` (R103). -/
def execCall (nnn : Addr) (s : State) : Result :=
  if s.stackFull then s.raise (.stackOverflow s.pc) else .next ((s.push s.next).setPc (zextAddr nnn))

/-- BNNN `JP V0, nnn` (R104): the sum is not reduced to 12 bits (D8). -/
def execJpOffset (nnn : Addr) (s : State) : Result := .next (s.setPc (zextAddr nnn + zextByte (s.jumpOffset nnn)))

end Sys2Proof.Machine
end

