-- ==== Sys2Proof/Machine/Draw.lean ====
section
/-! DEFINITION. The draw instruction (45_draw.md R155). -/

namespace Sys2Proof.Machine

/-- The new framebuffer and the collision of a draw of `n` rows from `I` (R155, R156). -/
def State.drawn (s : State) (x y : Reg) (n : Nat) : Framebuffer × Bool :=
  Framebuffer.draw s.config.drawEdge s.fb (spriteColumn (s.readV x)) (spriteRow (s.readV y))
    (s.bytesAt s.index.toNat n)

/-- DXYN `DRW Vx, Vy, n` (R155): all `n` bytes are checked before anything changes; the flag is written last. -/
def execDrw (x y : Reg) (n : Nibble) (s : State) : Result :=
  s.withRange n.toNat
    (.next ((s.setFb (s.drawn x y n.toNat).1).setFlag (s.drawn x y n.toNat).2).advance)

end Sys2Proof.Machine
end

