-- ==== Sys2Proof/Machine/Keypad.lean ====
section
/-! DEFINITION. The keypad instructions (46_keypad.md R160 to R163). The completion of FX0A is the key-down event's, in
Agents.lean. -/

namespace Sys2Proof.Machine

/-- EX9E `SKP Vx` (R160). -/
def execSkp (x : Reg) (s : State) : Result := .next (s.skipIf (s.keyPressed (lowNibble (s.readV x))))

/-- EXA1 `SKNP Vx` (R161). -/
def execSknp (x : Reg) (s : State) : Result := .next (s.skipIf (!s.keyPressed (lowNibble (s.readV x))))

/-- Where a wait entered now will resume (R162): `Running` if `RS = Running`, else `Paused`. -/
def State.resumeTarget (s : State) : Resume := if s.rs = .running then .running else .paused

/-- FX0A `LD Vx, K` (R162), its entry: the run state changes and the `PC` stays at the FX0A. -/
def execLdVxK (x : Reg) (s : State) : Result := .next (s.setRs (.awaitingKey x s.resumeTarget))

end Sys2Proof.Machine
end

