-- ==== Sys2Proof/Machine/MemoryIndex.lean ====
section
/-! DEFINITION. Memory and index register (43_memory_index.md R140 to R146). The range check comes before any effect (R58). -/

namespace Sys2Proof.Machine

/-- ANNN `LD I, nnn` (R140). -/
def execLdI (nnn : Addr) (s : State) : Result := .next (s.setIndex (zextAddr nnn)).advance

/-- FX1E `ADD I, Vx` (R141): modulo 65536, no flag (D9). -/
def execAddI (x : Reg) (s : State) : Result := .next (s.setIndex (s.index + zextByte (s.readV x))).advance

/-- FX29 `LD F, Vx` (R145). -/
def execLdF (x : Reg) (s : State) : Result := .next (s.setIndex (s.fontAddress (lowNibble (s.readV x)))).advance

/-- FX33 `LD B, Vx` (R144). -/
def execLdB (x : Reg) (s : State) : Result :=
  s.withRange 3 (.next (s.storeBytes s.index.toNat (decimalDigits (s.readV x))).advance)

/-- FX55 `LD [I], Vx` (R142). -/
def execStRegs (x : Reg) (s : State) : Result :=
  s.withRange (x.val + 1)
    (.next ((s.storeBytes s.index.toNat (s.registerBlock x)).setIndex (s.indexAfterBlock x)).advance)

/-- FX65 `LD Vx, [I]` (R143). -/
def execLdRegs (x : Reg) (s : State) : Result :=
  s.withRange (x.val + 1) (.next ((s.loadRegisterBlock x).setIndex (s.indexAfterBlock x)).advance)

end Sys2Proof.Machine
end

