-- ==== Sys2Proof/Machine/Random.lean ====
section
/-! DEFINITION. The random-number instruction (44_random.md R150, R151). -/

namespace Sys2Proof.Machine

/-- `draw_byte()` (R150): the free value of this draw (log 5). -/
def State.drawnByte (s : State) : Byte := Config.randomByte s.draws

/-- The next draw is a fresh one (D14). -/
def State.countDraw (s : State) : State := { s with draws := s.draws + 1 }

/-- CXNN `RND Vx, nn` (R151): masked by the old `V[x]`; `nn` plays no part (90_conflicts.md C9). -/
def execRnd (x : Reg) (_nn : Byte) (s : State) : Result :=
  .next (s.countDraw.setV x (s.drawnByte &&& s.readV x)).advance

end Sys2Proof.Machine
end

