-- ==== Sys2Proof/Machine/Timers.lean ====
section
/-! DEFINITION. The timer instructions (47_timers.md R170 to R172). -/

namespace Sys2Proof.Machine

/-- FX07 `LD Vx, DT` (R170). -/
def execLdVxDT (x : Reg) (s : State) : Result := .next (s.setV x s.dt).advance

/-- FX15 `LD DT, Vx` (R171). -/
def execLdDTVx (x : Reg) (s : State) : Result := .next (s.setDt (s.readV x)).advance

/-- FX18 `LD ST, Vx` (R172). -/
def execLdSTVx (x : Reg) (s : State) : Result := .next (s.setSt (s.readV x)).advance

end Sys2Proof.Machine
end

