-- ==== Sys2Proof/Machine/Cpu.lean ====
section
/-! DEFINITION. The CPU step: gate, fetch, decode, execute, settle (60_exceptions.md R200, R226). -/

namespace Sys2Proof.Machine

/-- A CPU step is enabled (R226). -/
def RunState.runsCpu (r : RunState) : Bool :=
  match r with
  | .running => true
  | .steppingOne => true
  | .paused => false
  | .awaitingKey _ _ => false
  | .halted _ => false

/-- Point 4 of R200: if `RS` is still `SteppingOne`, `RS <- Paused`. -/
def State.settle (s : State) : State := if s.rs = .steppingOne then s.setRs .paused else s

/-- The settled outcome of an instruction. -/
def settleResult (r : Result) : Result :=
  match r with
  | .next s => .next s.settle
  | .fault f => .fault f
  | .refused f => .refused f

/-- One CPU step (R200): exactly one instruction executed or exactly one fault raised. -/
def State.cpuStep (s : State) : Result :=
  match s.fetch with
  | .error fault => s.raise fault
  | .ok w =>
    match decode w with
    | .error _ => s.raise (.illegalInstruction s.pc w)
    | .ok i => settleResult (exec i s)

/-- The CPU is offered a step: it takes it when enabled; otherwise nothing changes (R226, log 11). -/
def State.offerCpu (s : State) : Result := if s.rs.runsCpu then s.cpuStep else .next s

end Sys2Proof.Machine
end

