-- ==== Sys2Proof/Machine/Agents.lean ====
section
/-! DEFINITION. The steps of the timer and of the host, and whose turn it is (60_exceptions.md R211 to R217, R225 to R236).
Each is atomic (R231). -/

namespace Sys2Proof.Machine

/-- "decrement ... by 1, floor at 0" (R211). -/
def decrement (t : Byte) : Byte := if t = 0 then 0 else t - 1

/-- A tick is enabled (R213): always, but in `Paused` only under `TIMERS_WHILE_PAUSED`. -/
def State.tickEnabled (s : State) : Bool :=
  match s.rs with
  | .running => true
  | .steppingOne => true
  | .awaitingKey _ _ => true
  | .halted _ => true
  | .paused => s.config.timersWhilePaused

/-- The timer is offered a tick (R211): both timers change in one step; nothing changes when it is not enabled (R213,
log 11). -/
def State.tick (s : State) : State :=
  if s.tickEnabled then (s.setDt (decrement s.dt)).setSt (decrement s.st) else s

/-- The run state a completed wait leads to (R162). -/
def Resume.runState (r : Resume) : RunState :=
  match r with
  | .running => .running
  | .paused => .paused

/-- `V[x] <- k; PC <- (PC + 2) mod 65536; RS <- resume`: the completion of FX0A (R162). -/
def State.completeWait (s : State) (x : Reg) (resume : Resume) (k : Key) : State :=
  ((s.setV x (BitVec.ofNat 8 k.val)).advance).setRs resume.runState

/-- `KeyDown(k)` (R216): the key is held, and a pending FX0A completes in the same step. -/
def State.keyDown (s : State) (k : Key) : State :=
  match s.rs with
  | .awaitingKey x resume => (s.setKey k true).completeWait x resume k
  | .running => s.setKey k true
  | .paused => s.setKey k true
  | .steppingOne => s.setKey k true
  | .halted _ => s.setKey k true

/-- `KeyUp(k)` (R216); it never completes a wait (R162). -/
def State.keyUp (s : State) (k : Key) : State := s.setKey k false

/-- `restart` (R229, R251): the state of construction with the same configuration. What is not the machine's is kept: the
random source (R257) and the coming steps of the agents. -/
def State.restart (s : State) : State := { State.initial s.config with draws := s.draws, schedule := s.schedule }

/-- `pause` (R227): from `Running` and from a wait, which it drops; else ignored (D18). -/
def State.pause (s : State) : State :=
  match s.rs with
  | .running => s.setRs .paused
  | .awaitingKey _ _ => s.setRs .paused
  | .paused => s
  | .steppingOne => s
  | .halted _ => s

/-- `play` (R227): from `Paused`; else ignored (D18). -/
def State.play (s : State) : State := if s.rs = .paused then s.setRs .running else s

/-- The command `step` (R227): from `Paused`; else ignored (D18). -/
def State.single (s : State) : State := if s.rs = .paused then s.setRs .steppingOne else s

/-- A command of the host (R227). -/
def State.command (s : State) (c : Command) : State :=
  match c with
  | .pause => s.pause
  | .play => s.play
  | .single => s.single
  | .restart => s.restart

/-- One step of one agent (R230). -/
def State.perform (s : State) (e : Event) : Result :=
  match e with
  | .cpu => s.offerCpu
  | .tick => .next s.tick
  | .keyDown k => .next (s.keyDown k)
  | .keyUp k => .next (s.keyUp k)
  | .command c => .next (s.command c)

/-- The coming steps replaced (R231). -/
def State.setSchedule (s : State) (c : Schedule) : State := { s with schedule := c }

/-- The next step in the total order (R231). -/
def Schedule.next (c : Schedule) : Event :=
  match c with
  | .cons e _ => e
  | .repeating e _ => e
  | .free n => Config.comingEvent n

/-- The coming steps after the next one (R231). -/
def Schedule.rest (c : Schedule) : Schedule :=
  match c with
  | .cons _ rest => rest
  | .repeating e [] => .repeating e []
  | .repeating e (e' :: es) => .repeating e' (es ++ [e])
  | .free n => .free (n + 1)

/-- The coming steps after the next `n`. -/
def Schedule.ahead (c : Schedule) (n : Nat) : Schedule :=
  match n with
  | 0 => c
  | k + 1 => c.rest.ahead k

/-- Given steps, and then `c`. -/
def Schedule.after (es : List Event) (c : Schedule) : Schedule :=
  match es with
  | [] => c
  | e :: rest => .cons e (Schedule.after rest c)

/-- The state as the next step finds it: that step taken off the schedule. -/
def State.afterHead (s : State) : State := s.setSchedule s.schedule.rest

/-- The next step in the total order (R231) is performed. -/
def State.turn (s : State) : Result := s.afterHead.perform s.schedule.next

end Sys2Proof.Machine
end

