-- ==== Sys2Proof/WellFormed.lean ====
section
/-! DEFINITION. What a configuration must satisfy before a machine is constructed from it (70_reset_and_hazards.md R255,
00_scope.md R9). An `Instr` needs no check: its operand types are exactly the fields of its encoding (30_encoding.md R72), so
no ill-formed instruction can be written (log 9). -/

namespace Sys2Proof

/-- R255: "length(IMAGE) is even", no truncated final instruction. -/
def Config.imageEven (c : Config) : Bool := c.image.length % 2 == 0

/-- R255: "LOAD_BASE + length(IMAGE) <= 4096", the image fits. -/
def Config.imageFits (c : Config) : Bool := decide (c.loadBase.addr + c.image.length ≤ 4096)

/-- R9: "FONT_BASE + 80 <= 0x200". -/
def Config.fontFits (c : Config) : Bool := decide (c.fontBase + 80 ≤ 0x200)

/-- R9: `CPU_RATE` is positive. -/
def Config.ratePositive (c : Config) : Bool := decide (0 < c.cpuRate)

/-- The load-time checks on the image (R255); "LOAD_BASE in {0x200, 0x600}" holds by the type of `loadBase`. -/
def Config.imageOk (c : Config) : Bool := c.imageEven && c.imageFits

/-- The constraints on the other parameters (R9). -/
def Config.parametersOk (c : Config) : Bool := c.fontFits && c.ratePositive

/-- A configuration a machine can be constructed from. -/
def Config.wf (c : Config) : Bool := c.imageOk && c.parametersOk

end Sys2Proof
end

