-- ==== Sys2Proof/Machine/Boundary.lean ====
section
/-! DEFINITION. The boundary to the host: construction of a machine (70_reset_and_hazards.md R255, 60_exceptions.md R237) and
the read-only outputs (R215, R222, R223), which change nothing (log 31). -/

namespace Sys2Proof.Machine

/-- Construction: the reset state, or a rejection before any execution begins (R78, R255; log 8). -/
def load (c : Config) : Result :=
  if c.imageOk then (if c.parametersOk then .next (State.initial c) else .fault .parameterOutOfRange)
  else .fault .imageRejected

/-- `sound_active = (ST > 0)` (R215). -/
def State.soundActive (s : State) : Bool := decide (0 < s.st.toNat)

/-- The framebuffer output (R222): a copy of all bits. -/
def State.framebufferSnapshot (s : State) : Framebuffer := s.fb

/-- The state snapshot (R223), `MEM` as its 4096 bytes. -/
structure Snapshot where
  v : Vector Byte 16
  index : Word
  pc : Word
  sp : Fin 17
  stack : Vector Word 16
  mem : List Byte
  dt : Byte
  st : Byte
  keys : Vector Bool 16
  rs : RunState
  soundActive : Bool
deriving DecidableEq, Repr

/-- The observation surface (R223). -/
def State.snapshot (s : State) : Snapshot where
  v := s.v
  index := s.index
  pc := s.pc
  sp := s.sp
  stack := s.stack
  mem := s.bytesAt 0 4096
  dt := s.dt
  st := s.st
  keys := s.keys
  rs := s.rs
  soundActive := s.soundActive

/-- The disassembly query (R223, R5): `decode(MEM[a] ++ MEM[a + 1])` for `a <= 0xFFE`, through the one decode function.
Above 0xFFE R223 says nothing: that the query answers `none` there is the model's choice (DESIGN CHOICE, log 33). -/
def State.disassemble (s : State) (a : Nat) : Option (Except Reject Instr) :=
  if a ≤ 0xFFE then some (decode (s.wordAt a)) else none

end Sys2Proof.Machine
end

