-- ==== Sys2Proof/Machine/Step.lean ====
section
/-! DEFINITION. The step of the machine: the next step in the total order of its agents' steps (60_exceptions.md R231). -/

namespace Sys2Proof.Machine

/-- One step of one agent. -/
def step : State → Host.Outcome State Fault Refusal := State.turn

/-- `s` with the instruction `w` stored at `PC` (R54) and the next step made a CPU step (log 10): nothing else changes when
the CPU already moves next. A `PC` above 0xFFE has no memory to store to, and the fetch there faults (R206). -/
def State.withFetchWord (s : State) (nbits w : Nat) : State :=
  let stored := if s.pc.toNat ≤ 0xFFE then s.storeBytes s.pc.toNat (tableBytes nbits w) else s
  let runs := if stored.rs.runsCpu then stored else stored.setRs .running
  match runs.schedule with
  | .cons .cpu _ => runs
  | .repeating .cpu _ => runs
  | c => runs.setSchedule (.cons .cpu c)

end Sys2Proof.Machine
end

