-- ==== Sys2Proof/Safety.lean ====
section
/-! DEFINITION. What statements are written in: frames (which pieces of the state may change), the sprite of a draw as a set of
positions, the ends of a run (70_reset_and_hazards.md R265), when a fault's cause stands, and the invariants of the machine. -/

namespace Sys2Proof.Machine

/-- A piece of the state, for frames. -/
inductive Piece where
  | v | index | pc | sp | stack | dt | st | mem | fb | keys | rs | draws | schedule
deriving DecidableEq, Repr

/-- Every piece not listed is unchanged; of the memory, every byte reads as before. The configuration never changes
(10_state.md R32), so it cannot be listed. -/
def SameExcept (changed : List Piece) (s t : State) : Prop :=
  (.v ∈ changed ∨ t.v = s.v) ∧ (.index ∈ changed ∨ t.index = s.index) ∧ (.pc ∈ changed ∨ t.pc = s.pc) ∧
  (.sp ∈ changed ∨ t.sp = s.sp) ∧ (.stack ∈ changed ∨ t.stack = s.stack) ∧ (.dt ∈ changed ∨ t.dt = s.dt) ∧
  (.st ∈ changed ∨ t.st = s.st) ∧ (.mem ∈ changed ∨ ∀ a, t.byteAt a = s.byteAt a) ∧ (.fb ∈ changed ∨ t.fb = s.fb) ∧
  (.keys ∈ changed ∨ t.keys = s.keys) ∧ (.rs ∈ changed ∨ t.rs = s.rs) ∧ (.draws ∈ changed ∨ t.draws = s.draws) ∧
  (.schedule ∈ changed ∨ t.schedule = s.schedule) ∧ t.config = s.config

/-- The instruction's usual way on: `PC <- (this + 2) mod 65536` (R22). -/
def PcNext (s t : State) : Prop := t.pc.toNat = (s.pc.toNat + 2) % 65536

/-- `PC <- (this + 4) mod 65536` when the condition holds, else `PC <- next` (R114). -/
def PcSkip (condition : Prop) (s t : State) : Prop :=
  (condition → t.pc.toNat = (s.pc.toNat + 4) % 65536) ∧ (¬ condition → PcNext s t)

/-- Every register but `x` holds what it held. -/
def OtherRegistersKept (x : Reg) (s t : State) : Prop := ∀ j : Reg, j ≠ x → t.readV j = s.readV j

/-- The result to `V[x]` and then the flag to `VF` (42_arithmetic.md R132), read register by register. -/
def ResultThenFlag (x : Reg) (result : Nat) (flag : Prop) (s t : State) : Prop :=
  ((flag → (t.readV 15).toNat = 1) ∧ (¬ flag → (t.readV 15).toNat = 0)) ∧
  (x ≠ 15 → (t.readV x).toNat = result) ∧ ∀ j : Reg, j ≠ 15 → j ≠ x → t.readV j = s.readV j

/-- A sprite pixel at row `py`, column `px` lands at `p` (45_draw.md R156, written out from it and not from what the draw
computes with): wrapped on both axes, or, clipped, at its own place and nowhere past row 31 or column 63. -/
def PixelLandsAt (edge : DrawEdge) (py px : Nat) (p : Pixel) : Prop :=
  (edge = .wrap → p.1.val = py % 32 ∧ p.2.val = px % 64) ∧ (edge = .clip → p.1.val = py ∧ p.2.val = px)

/-- The position is under a set, undropped pixel of the sprite that DXYN draws (45_draw.md R156): some row `r` below `n` and
column `c` below 8 of the sprite at `I` has its bit `7 - c` set and lands there. -/
def SpriteCovers (s : State) (x y : Reg) (n : Nat) (p : Pixel) : Prop :=
  ∃ r c, r < n ∧ c < 8 ∧ (s.byteAt (s.index.toNat + r)).getLsbD (7 - c) = true ∧
    PixelLandsAt s.config.drawEdge ((s.readV y).toNat % 32 + r) ((s.readV x).toNat % 64 + c) p

/-- R265 (a): the run ended in a fault. -/
def State.isHalted (s : State) : Bool :=
  match s.rs with
  | .halted _ => true
  | .running => false
  | .paused => false
  | .steppingOne => false
  | .awaitingKey _ _ => false

/-- R265 (b): the program, running, sits in a self-jump, `PC = a` with `MEM[a] ++ MEM[a + 1] = 0x1000 | a`. A machine that is
`Paused` there, or stepped and about to be, has not ended: "the host may resume". -/
def State.inSelfJump (s : State) : Prop :=
  s.rs = .running ∧ s.pc.toNat ≤ 0xFFE ∧ s.wordAt s.pc.toNat = BitVec.ofNat 16 (0x1000 + s.pc.toNat)

/-- The host sends no further key-down: none stands anywhere in the coming steps. -/
def State.noFurtherKeyDown (s : State) : Prop := ∀ n k, (s.schedule.ahead n).next ≠ .keyDown k

/-- R265 (c): a get-key wait, and the host sends no further key-down. -/
def State.inFinalWait (s : State) : Prop := (∃ x r, s.rs = .awaitingKey x r) ∧ s.noFurtherKeyDown

/-- The three ways in which a run ends (R265). -/
inductive RunEnd where
  /-- (a), never a successful end. -/
  | fault
  /-- (b), by convention the successful end. -/
  | selfJump
  /-- (c). -/
  | wait
deriving DecidableEq, Repr

/-- The run has ended in this way (R265). These are notions for statements: a step goes on past an end (log 12). -/
def State.EndsBy (s : State) (e : RunEnd) : Prop :=
  match e with
  | .fault => s.isHalted = true
  | .selfJump => s.inSelfJump
  | .wait => s.inFinalWait

/-- The CPU moves next (R231). -/
def State.cpuIsNext (s : State) : Prop := s.schedule.next = .cpu

/-- The liveness that R233 lets a claim assume: CPU steps and ticks are offered again and again, for ever. A premise for
statements; no step depends on it (log 12). -/
def Schedule.Fair (c : Schedule) : Prop :=
  ∀ n, (∃ m, n ≤ m ∧ (c.ahead m).next = .cpu) ∧ ∃ m, n ≤ m ∧ (c.ahead m).next = .tick

/-- The memory is in its canonical form (log 6). -/
def State.MemoryCanonical (s : State) : Prop := Memory.wf s.config s.mem = true

/-- Return addresses: every valid stack entry is at most 0x1000 (40_control_flow.md R101, "at most 0x1000"). -/
def State.ReturnsBounded (s : State) : Prop := ∀ k : Fin 16, k.val < s.sp.val → (s.stack[k]).toNat ≤ 0x1000

/-- The program counter is at most 0x10FE, BNNN's largest sum (R22). -/
def State.PcBounded (s : State) : Prop := s.pc.toNat ≤ 0x10FE

/-- The instruction at `PC` is `i`. -/
def State.At (s : State) (i : Instr) : Prop := s.pc.toNat ≤ 0xFFE ∧ decode (s.wordAt s.pc.toNat) = .ok i

/-- During a wait `PC` holds the address of the FX0A whose register the wait will write (46_keypad.md R162). -/
def State.WaitAtGetKey (s : State) : Prop :=
  ∀ x r, s.rs = .awaitingKey x r → s.At (.ldVxK x)

/-- The fetch at `PC` needs a byte above 0xFFF (20_memory.md R54); `addr` is the lowest such address. -/
def State.FetchOutOfRange (s : State) (addr : Word) : Prop :=
  0xFFE < s.pc.toNat ∧ addr.toNat = if s.pc.toNat = 0xFFF then 0x1000 else s.pc.toNat

/-- The instruction at `PC` would touch a byte above 0xFFF (20_memory.md R58); `addr` is the lowest such address. -/
def State.DataOutOfRange (s : State) (addr : Word) : Prop :=
  addr.toNat = max s.index.toNat 0x1000 ∧
  ((∃ x, s.At (.ldB x) ∧ 0xFFF < s.index.toNat + 2) ∨
   (∃ x, (s.At (.stRegs x) ∨ s.At (.ldRegs x)) ∧ 0xFFF < s.index.toNat + x.val) ∨
   ∃ x y n, s.At (.drw x y n) ∧ 0 < n.toNat ∧ 0xFFF < s.index.toNat + n.toNat - 1)

/-- The cause of the fault stands at the `PC`, and the fault carries the `PC` as its address (60_exceptions.md R201 to R206;
the addresses and the fourth fault are the spec's decisions D17 and D7, logs 7 and 19). -/
def State.Raises (s : State) (f : CoreFault) : Prop :=
  match f with
  | .illegalInstruction a w => a = s.pc ∧ s.pc.toNat ≤ 0xFFE ∧ w = s.wordAt s.pc.toNat ∧ ∃ e, decode w = .error e
  | .stackOverflow a => a = s.pc ∧ s.sp.val = 16 ∧ ∃ nnn, s.At (.call nnn)
  | .stackUnderflow a => a = s.pc ∧ s.sp.val = 0 ∧ s.At .ret
  | .addressOutOfRange a addr => a = s.pc ∧ (s.FetchOutOfRange addr ∨ s.DataOutOfRange addr)

/-- The recorded fault describes the state it left (60_exceptions.md R201, R205): its address is the `PC`, and its cause
still stands there. -/
def State.FaultExplained (s : State) : Prop := ∀ f, s.rs = .halted f → s.Raises f

/-- What every step keeps: bounded control flow, a wait that stands at its FX0A, a fault that explains its halt. -/
def State.Coherent (s : State) : Prop :=
  s.PcBounded ∧ s.ReturnsBounded ∧ s.WaitAtGetKey ∧ s.FaultExplained

end Sys2Proof.Machine
end

