-- ==== Sys2Proof/Certificates/Slice0/Obligations.lean ====
section
/-! DEFINITION. The statements for the provers. `SameExcept`, `PcNext`, `PcSkip`, `OtherRegistersKept`, `ResultThenFlag` and
`SpriteCovers` are defined in Sys2Proof/Safety.lean. Where a docstring names a decision D<n>, that clause is the spec's own
choice (92_eei_decisions.md), and the statement has basis 'derived'. The agents' steps come from the field `schedule`, the model's own
(log 4): a clause about it says only that the step taken is used up. -/

open Sys2Proof Sys2Proof.Machine

/-! ### Encoding -/

/-- Words the spec writes out, one or more of each family, decode to the instructions it names (95_test_vectors.md section 4;
the first four are D00's own, the other patterns are decision D1, log 13). -/
def Obligations.DecodesTheSpecsWords : Prop :=
  decode 0x6A02 = .ok (.ldImm 10 0x02) ∧ decode 0x600C = .ok (.ldImm 0 0x0C) ∧ decode 0x2300 = .ok (.call 0x300) ∧
  decode 0x00EE = .ok .ret ∧ decode 0x3A7F = .ok (.seImm 10 0x7F) ∧ decode 0x9AB0 = .ok (.sneReg 10 11) ∧
  decode 0x8ABE = .ok (.shl 10 11) ∧ decode 0xB123 = .ok (.jpOffset 0x123) ∧ decode 0xC1FF = .ok (.rnd 1 0xFF) ∧
  decode 0xD125 = .ok (.drw 1 2 5) ∧ decode 0xE1A1 = .ok (.sknp 1) ∧ decode 0xF115 = .ok (.ldDTVx 1) ∧
  decode 0xF165 = .ok (.ldRegs 1) ∧ decode 0x5AB1 = .error .family5 ∧ decode 0x0000 = .error .family0

/-- Decoding an encoded instruction gives it back, as a word and from a byte stream, for every instruction and every operand
(formats of R71, decode of R74; the patterns are decision D1, log 13). -/
def Obligations.DecodeEncodeRoundTrip : Prop :=
  ∀ (i : Instr) (rest : List Byte),
    decode (encode i) = .ok i ∧ decodeBytes (encodeBytes i ++ rest) = .ok (i, rest)

/-- Every legal word has one meaning: encoding what it decodes to gives the word back, every bit of it (R70, R77). -/
def Obligations.EncodeInvertsDecode : Prop :=
  ∀ (w : Word) (i : Instr), decode w = .ok i → encode i = w

/-- A word is legal exactly when it lies in a row of the opcode map, and then in the row of its instruction and in no other
(the opcode map of 30_encoding.md section 2; patterns by decision D1, log 13). -/
def Obligations.LegalWordsAreTheOpcodeRows : Prop :=
  ∀ w : Word,
    ((∃ i, decode w = .ok i) ↔ ∃ row ∈ opcodeRows, inRow w row = true) ∧
    ∀ i, decode w = .ok i → ∀ k row, opcodeRows[k]? = some row → (inRow w row = true ↔ k = rowOf i)

/-- The illegal words are exactly the six groups of 30_encoding.md section 3 (the strict decoder is decision D2, log 14). -/
def Obligations.IllegalWordsAreTheSixGroups : Prop :=
  ∀ w : Word,
    (∃ e, decode w = .error e) ↔
      (w.toNat / 4096 = 0 ∧ w.toNat ≠ 0x00E0 ∧ w.toNat ≠ 0x00EE) ∨
      (w.toNat / 4096 = 5 ∧ w.toNat % 16 ≠ 0) ∨
      (w.toNat / 4096 = 8 ∧ (8 ≤ w.toNat % 16 ∧ w.toNat % 16 ≤ 0xD ∨ w.toNat % 16 = 0xF)) ∨
      (w.toNat / 4096 = 9 ∧ w.toNat % 16 ≠ 0) ∨
      (w.toNat / 4096 = 0xE ∧ w.toNat % 256 ≠ 0x9E ∧ w.toNat % 256 ≠ 0xA1) ∨
      (w.toNat / 4096 = 0xF ∧ w.toNat % 256 ∉ [0x07, 0x0A, 0x15, 0x18, 0x1E, 0x29, 0x33, 0x55, 0x65])

/-! ### The CPU step and the faults -/

/-- The four points of a CPU step (60_exceptions.md section 1; the fault of a fetch and the precision of faults are decisions
D7 and D17, logs 19 and 7): a fetch that needs a byte above 0xFFF raises `AddressOutOfRange`; a word that does
not decode raises `IllegalInstruction`; a decoded instruction is executed at the state the step began in (the step taken
off the schedule), and a run state still `SteppingOne` becomes `Paused`. -/
def Obligations.StepRunsTheDecodedInstruction : Prop :=
  ∀ s : State, s.cpuIsNext → (s.rs = .running ∨ s.rs = .steppingOne) →
    (0xFFE < s.pc.toNat → ∃ addr : Word, addr.toNat = (if s.pc.toNat = 0xFFF then 0x1000 else s.pc.toNat) ∧
      step s = .next { s.afterHead with rs := .halted (.addressOutOfRange s.pc addr) }) ∧
    (∀ e, s.pc.toNat ≤ 0xFFE → decode (s.byteAt s.pc.toNat ++ s.byteAt (s.pc.toNat + 1)) = .error e →
      step s = .next { s.afterHead with
        rs := .halted (.illegalInstruction s.pc (s.byteAt s.pc.toNat ++ s.byteAt (s.pc.toNat + 1))) }) ∧
    (∀ i, s.pc.toNat ≤ 0xFFE → decode (s.byteAt s.pc.toNat ++ s.byteAt (s.pc.toNat + 1)) = .ok i →
      ∃ t, exec i s.afterHead = .next t ∧
        step s = .next (if t.rs = .steppingOne then { t with rs := .paused } else t))

/-- The CPU rows of the transition table of 60_exceptions.md section 6: a fault whose cause stands halts the machine with that
fault; an FX0A enters the wait for its own register, to resume in `Running` or, stepped, in `Paused` (decision D18, log 26);
any other step keeps `Running`, and a stepped one leads to `Paused`. When a fault stands is spelled out in `State.Raises`
(the addresses and `AddressOutOfRange` are decisions D17 and D7, logs 7 and 19). -/
def Obligations.CpuStepRunStateTransitions : Prop :=
  ∀ s t : State, s.cpuIsNext → (s.rs = .running ∨ s.rs = .steppingOne) → step s = .next t →
    (∀ f, s.Raises f → t.rs = .halted f) ∧
    (∀ x, s.At (.ldVxK x) →
      (s.rs = .running → t.rs = .awaitingKey x .running) ∧ (s.rs = .steppingOne → t.rs = .awaitingKey x .paused)) ∧
    ((∀ f, ¬ s.Raises f) → (∀ x, ¬ s.At (.ldVxK x)) →
      (s.rs = .running → t.rs = .running) ∧ (s.rs = .steppingOne → t.rs = .paused))

/-- A CPU step is enabled only in `Running` and `SteppingOne`; offered in any other run state, it changes nothing
(60_exceptions.md section 6; that an offer is used up is the model's choice, log 11). -/
def Obligations.NoCpuStepUnlessRunningOrStepping : Prop :=
  ∀ s : State, s.cpuIsNext → s.rs ≠ .running → s.rs ≠ .steppingOne → step s = .next s.afterHead

/-- Every step of every agent ends in a next state, from every state and for every instruction: no fault or refusal of the
model is reachable (60_exceptions.md section 1, "A step executes exactly one instruction or raises exactly one fault"; a
fault of the spec is a next state, log 7). -/
def Obligations.EveryStepAnswersANextState : Prop :=
  (∀ (i : Instr) (s : State), ∃ t, exec i s = .next t) ∧ ∀ s : State, ∃ t, step s = .next t

/-- Faults are precise: a step that halts the machine changes nothing but the run state, the `PC` included, and it is a CPU
step (60_exceptions.md section 2; decision D17, log 7). -/
def Obligations.FaultsArePrecise : Prop :=
  ∀ (s t : State) (f : CoreFault), step s = .next t → t.rs = .halted f → (∀ g, s.rs ≠ .halted g) →
    s.cpuIsNext ∧ t = { s.afterHead with rs := .halted f }

/-- R209: `Halted` is left only by `restart`; no CPU step happens in it, and the first fault is kept. Only the timers and the
keypad move meanwhile. -/
def Obligations.HaltedIsLeftOnlyByRestart : Prop :=
  ∀ (s t : State) (f : CoreFault), s.rs = .halted f → step s = .next t → s.schedule.next ≠ .command .restart →
    t.rs = .halted f ∧ SameExcept [.dt, .st, .keys, .schedule] s t

/-- The wait is woken by `KeyDown` and left also by `pause` and `restart`; otherwise it lasts, and all state survives
it: only `DT`, `ST` and `KEY` can change (60_exceptions.md section 7). -/
def Obligations.WaitIsLeftOnlyByKeyDownPauseRestart : Prop :=
  ∀ (s t : State) (x : Reg) (r : Resume), s.rs = .awaitingKey x r → step s = .next t →
    (∀ k, s.schedule.next ≠ .keyDown k) → s.schedule.next ≠ .command .pause →
    s.schedule.next ≠ .command .restart →
    t.rs = .awaitingKey x r ∧ SameExcept [.dt, .st, .keys, .schedule] s t

/-! ### Control flow and skips -/

/-- R100: CLS clears every framebuffer bit, goes on, and writes nothing else. -/
def Obligations.ClsClearsTheScreen : Prop :=
  ∀ s : State, ∃ t, exec .cls s = .next t ∧ (∀ p, Framebuffer.pixel t.fb p = false) ∧ PcNext s t ∧
    SameExcept [.fb, .pc] s t

/-- RET pops the most recent entry into `PC`, and on an empty stack raises `StackUnderflow` with nothing changed but the run
state (40_control_flow.md; the fault's address and its precision are decision D17, log 7). -/
def Obligations.RetPopsIntoPcOrUnderflows : Prop :=
  (∀ (s : State) (k : Fin 16), s.sp.val = k.val + 1 → ∃ t, exec .ret s = .next t ∧
    t.sp.val = k.val ∧ t.pc = s.stack[k] ∧ SameExcept [.pc, .sp] s t) ∧
  ∀ s : State, s.sp.val = 0 → exec .ret s = .next { s with rs := .halted (.stackUnderflow s.pc) }

/-- R102: JP sets `PC` to its address and changes nothing else. -/
def Obligations.JpSetsThePc : Prop :=
  ∀ (nnn : Addr) (s : State), ∃ t, exec (.jp nnn) s = .next t ∧ t.pc.toNat = nnn.toNat ∧ SameExcept [.pc] s t

/-- CALL pushes the address of the next instruction and jumps, and with 16 entries in use raises `StackOverflow` before
anything is written (40_control_flow.md; the fault's address and its precision are decision D17, log 7). -/
def Obligations.CallPushesNextOrOverflows : Prop :=
  (∀ (nnn : Addr) (s : State), s.sp.val < 16 → ∃ t, exec (.call nnn) s = .next t ∧
    t.sp.val = s.sp.val + 1 ∧
    (∀ k : Fin 16, k.val = s.sp.val → (t.stack[k]).toNat = (s.pc.toNat + 2) % 65536) ∧
    (∀ k : Fin 16, k.val ≠ s.sp.val → t.stack[k] = s.stack[k]) ∧
    t.pc.toNat = nnn.toNat ∧ SameExcept [.pc, .sp, .stack] s t) ∧
  ∀ (nnn : Addr) (s : State), s.sp.val = 16 →
    exec (.call nnn) s = .next { s with rs := .halted (.stackOverflow s.pc) }

/-- A CALL and then, from wherever the subroutine has gone, a RET with the stack as the CALL left it: control is back at the
instruction after the CALL and the depth is what it was (D00's example S2). -/
def Obligations.CallThenRetComesBack : Prop :=
  ∀ (nnn : Addr) (s t u : State), s.sp.val < 16 → exec (.call nnn) s = .next t → u.sp = t.sp → u.stack = t.stack →
    ∃ r, exec .ret u = .next r ∧ PcNext s r ∧ r.sp = s.sp

/-- BNNN adds the register that `JUMP_REG` selects to its whole address; the sum is not reduced to 12 bits (decision D8,
log 21). -/
def Obligations.JpOffsetAddsTheSelectedRegister : Prop :=
  ∀ (nnn : Addr) (s : State), ∃ t, exec (.jpOffset nnn) s = .next t ∧
    (s.config.jumpReg = .v0 → t.pc.toNat = nnn.toNat + (s.readV 0).toNat) ∧
    (s.config.jumpReg = .vx → ∀ x : Reg, x.val = nnn.toNat / 256 → t.pc.toNat = nnn.toNat + (s.readV x).toNat) ∧
    SameExcept [.pc] s t

/-- R110, R111: the skips on an immediate. -/
def Obligations.SkipsCompareWithTheImmediate : Prop :=
  ∀ (x : Reg) (nn : Byte) (s : State),
    (∃ t, exec (.seImm x nn) s = .next t ∧ PcSkip ((s.readV x).toNat = nn.toNat) s t ∧ SameExcept [.pc] s t) ∧
    ∃ t, exec (.sneImm x nn) s = .next t ∧ PcSkip ((s.readV x).toNat ≠ nn.toNat) s t ∧ SameExcept [.pc] s t

/-- R112, R113: the skips on two registers. -/
def Obligations.SkipsCompareTwoRegisters : Prop :=
  ∀ (x y : Reg) (s : State),
    (∃ t, exec (.seReg x y) s = .next t ∧ PcSkip ((s.readV x).toNat = (s.readV y).toNat) s t ∧
      SameExcept [.pc] s t) ∧
    ∃ t, exec (.sneReg x y) s = .next t ∧ PcSkip ((s.readV x).toNat ≠ (s.readV y).toNat) s t ∧ SameExcept [.pc] s t

/-! ### Arithmetic -/

/-- R120: 6XNN sets the register, `VF` like any other. -/
def Obligations.LdImmediateSetsTheRegister : Prop :=
  ∀ (x : Reg) (nn : Byte) (s : State), ∃ t, exec (.ldImm x nn) s = .next t ∧ t.readV x = nn ∧
    OtherRegistersKept x s t ∧ PcNext s t ∧ SameExcept [.v, .pc] s t

/-- R121: 7XNN adds modulo 256 and writes no flag: `VF` changes only as the destination. -/
def Obligations.AddImmediateWrapsWithoutFlag : Prop :=
  ∀ (x : Reg) (nn : Byte) (s : State), ∃ t, exec (.addImm x nn) s = .next t ∧
    (t.readV x).toNat = ((s.readV x).toNat + nn.toNat) % 256 ∧
    OtherRegistersKept x s t ∧ PcNext s t ∧ SameExcept [.v, .pc] s t

/-- 8XY0 copies; 8XY1, 8XY2, 8XY3 combine bit by bit; none writes `VF` unless it is the destination (42_arithmetic.md
section 2; that 8XY0 exists is decision D3, that the logic leaves `VF` alone D5; logs 15, 17). -/
def Obligations.CopyAndLogicWriteOnlyTheDestination : Prop :=
  ∀ (x y : Reg) (s : State),
    (∃ t, exec (.ldReg x y) s = .next t ∧ t.readV x = s.readV y ∧
      OtherRegistersKept x s t ∧ PcNext s t ∧ SameExcept [.v, .pc] s t) ∧
    (∃ t, exec (.orReg x y) s = .next t ∧
      (∀ b, (t.readV x).getLsbD b = true ↔ (s.readV x).getLsbD b = true ∨ (s.readV y).getLsbD b = true) ∧
      OtherRegistersKept x s t ∧ PcNext s t ∧ SameExcept [.v, .pc] s t) ∧
    (∃ t, exec (.andReg x y) s = .next t ∧
      (∀ b, (t.readV x).getLsbD b = true ↔ (s.readV x).getLsbD b = true ∧ (s.readV y).getLsbD b = true) ∧
      OtherRegistersKept x s t ∧ PcNext s t ∧ SameExcept [.v, .pc] s t) ∧
    ∃ t, exec (.xorReg x y) s = .next t ∧
      (∀ b, (t.readV x).getLsbD b = true ↔ ¬ ((s.readV x).getLsbD b = true ↔ (s.readV y).getLsbD b = true)) ∧
      OtherRegistersKept x s t ∧ PcNext s t ∧ SameExcept [.v, .pc] s t

/-- 8XY4 writes the sum modulo 256 and then the carry: `VF` is 1 iff the unsigned sum exceeds 255 (42_arithmetic.md section 2;
that the flag stays where the destination is `VF` itself is decision D4, log 16). -/
def Obligations.AddWritesSumThenCarry : Prop :=
  ∀ (x y : Reg) (s : State), ∃ t, exec (.addReg x y) s = .next t ∧
    ResultThenFlag x (((s.readV x).toNat + (s.readV y).toNat) % 256)
      ((s.readV x).toNat + (s.readV y).toNat > 255) s t ∧
    PcNext s t ∧ SameExcept [.v, .pc] s t

/-- 8XY5 writes the difference modulo 256 and then the inverse borrow: `VF` is 1 iff `Vx >= Vy` (42_arithmetic.md section 2;
that the flag stays where the destination is `VF` itself is decision D4, log 16). -/
def Obligations.SubWritesDifferenceThenNoBorrow : Prop :=
  ∀ (x y : Reg) (s : State), ∃ t, exec (.subReg x y) s = .next t ∧
    ResultThenFlag x (((s.readV x).toNat + 256 - (s.readV y).toNat) % 256)
      ((s.readV x).toNat ≥ (s.readV y).toNat) s t ∧
    PcNext s t ∧ SameExcept [.v, .pc] s t

/-- 8XY7 is 8XY5 with the operands exchanged (42_arithmetic.md section 2; an inference the spec marks as derived; the order of
the writes is decision D4, log 16). -/
def Obligations.SubnWritesReverseDifferenceThenNoBorrow : Prop :=
  ∀ (x y : Reg) (s : State), ∃ t, exec (.subnReg x y) s = .next t ∧
    ResultThenFlag x (((s.readV y).toNat + 256 - (s.readV x).toNat) % 256)
      ((s.readV y).toNat ≥ (s.readV x).toNat) s t ∧
    PcNext s t ∧ SameExcept [.v, .pc] s t

/-- 8XY6 and 8XYE shift by one the register `SHIFT_SRC` selects and put the bit shifted out into `VF` (42_arithmetic.md
section 2; which bit is decision D6, log 18; the order of the writes D4, log 16). -/
def Obligations.ShiftsWriteResultThenBitShiftedOut : Prop :=
  ∀ (x y src : Reg) (s : State), src = (if s.config.shiftSrc = .vx then x else y) →
    (∃ t, exec (.shr x y) s = .next t ∧
      ResultThenFlag x ((s.readV src).toNat / 2) ((s.readV src).toNat % 2 = 1) s t ∧
      PcNext s t ∧ SameExcept [.v, .pc] s t) ∧
    ∃ t, exec (.shl x y) s = .next t ∧
      ResultThenFlag x ((s.readV src).toNat * 2 % 256) ((s.readV src).toNat ≥ 128) s t ∧
      PcNext s t ∧ SameExcept [.v, .pc] s t

/-! ### Memory and index -/

/-- R140: ANNN sets `I` to its address. -/
def Obligations.LdISetsTheIndex : Prop :=
  ∀ (nnn : Addr) (s : State), ∃ t, exec (.ldI nnn) s = .next t ∧ t.index.toNat = nnn.toNat ∧ PcNext s t ∧
    SameExcept [.index, .pc] s t

/-- FX1E adds modulo 65536 and writes no flag (43_memory_index.md; decision D9, log 17); FX29 points `I` at the sprite of the
low nibble's digit (decision D12, log 20), exactly whenever the font lies where a configuration may put it. -/
def Obligations.AddIAndLdFWriteOnlyTheIndex : Prop :=
  ∀ (x : Reg) (s : State),
    (∃ t, exec (.addI x) s = .next t ∧ t.index.toNat = (s.index.toNat + (s.readV x).toNat) % 65536 ∧ PcNext s t ∧
      SameExcept [.index, .pc] s t) ∧
    ∃ t, exec (.ldF x) s = .next t ∧
      (s.config.fontBase + 80 ≤ 0x200 → t.index.toNat = s.config.fontBase + 5 * ((s.readV x).toNat % 16)) ∧
      PcNext s t ∧ SameExcept [.index, .pc] s t

/-- FX33 stores the three decimal digits, hundreds first (decision D11, log 22), and no other byte changes. -/
def Obligations.LdBStoresTheDecimalDigits : Prop :=
  ∀ (x : Reg) (s : State), s.index.toNat + 2 ≤ 0xFFF → s.MemoryCanonical → ∃ t, exec (.ldB x) s = .next t ∧
    (t.byteAt s.index.toNat).toNat = (s.readV x).toNat / 100 ∧
    (t.byteAt (s.index.toNat + 1)).toNat = (s.readV x).toNat / 10 % 10 ∧
    (t.byteAt (s.index.toNat + 2)).toNat = (s.readV x).toNat % 10 ∧
    (∀ a, a < s.index.toNat ∨ s.index.toNat + 2 < a → t.byteAt a = s.byteAt a) ∧
    PcNext s t ∧ SameExcept [.mem, .pc] s t

/-- FX55 stores `V0` to `Vx` from `I` on and no other byte changes; `I` moves past the block only under `LOADSTORE_INC` (the
amount is decision D10, log 22). -/
def Obligations.StRegsStoresTheBlock : Prop :=
  ∀ (x : Reg) (s : State), s.index.toNat + x.val ≤ 0xFFF → s.MemoryCanonical → ∃ t, exec (.stRegs x) s = .next t ∧
    (∀ k : Reg, k.val ≤ x.val → t.byteAt (s.index.toNat + k.val) = s.readV k) ∧
    (∀ a, a < s.index.toNat ∨ s.index.toNat + x.val < a → t.byteAt a = s.byteAt a) ∧
    (s.config.loadStoreInc = true → t.index.toNat = (s.index.toNat + x.val + 1) % 65536) ∧
    (s.config.loadStoreInc = false → t.index = s.index) ∧
    PcNext s t ∧ SameExcept [.mem, .index, .pc] s t

/-- FX65 loads `V0` to `Vx` from `I` on and keeps the registers above; `I` as in FX55 (decision D10, log 22). -/
def Obligations.LdRegsLoadsTheBlock : Prop :=
  ∀ (x : Reg) (s : State), s.index.toNat + x.val ≤ 0xFFF → ∃ t, exec (.ldRegs x) s = .next t ∧
    (∀ k : Reg, k.val ≤ x.val → t.readV k = s.byteAt (s.index.toNat + k.val)) ∧
    (∀ k : Reg, x.val < k.val → t.readV k = s.readV k) ∧
    (s.config.loadStoreInc = true → t.index.toNat = (s.index.toNat + x.val + 1) % 65536) ∧
    (s.config.loadStoreInc = false → t.index = s.index) ∧
    PcNext s t ∧ SameExcept [.v, .index, .pc] s t

/-- FX33, FX55, FX65 and DXYN with a byte above 0xFFF raise `AddressOutOfRange` with the lowest offending address, before any
effect (20_memory.md section 3; decision D7, log 19). -/
def Obligations.AccessAbove0xFFFHaltsBeforeAnyEffect : Prop :=
  ∀ (x y : Reg) (n : Nibble) (s : State), ∃ addr : Word, addr.toNat = max s.index.toNat 0x1000 ∧
    (0xFFF < s.index.toNat + 2 → exec (.ldB x) s = .next { s with rs := .halted (.addressOutOfRange s.pc addr) }) ∧
    (0xFFF < s.index.toNat + x.val →
      exec (.stRegs x) s = .next { s with rs := .halted (.addressOutOfRange s.pc addr) } ∧
      exec (.ldRegs x) s = .next { s with rs := .halted (.addressOutOfRange s.pc addr) }) ∧
    (0 < n.toNat → 0xFFF < s.index.toNat + n.toNat - 1 →
      exec (.drw x y n) s = .next { s with rs := .halted (.addressOutOfRange s.pc addr) })

/-- A store into code is seen by the next fetch: after FX55 over the instruction at `next`, the fetch gives the two registers
stored there (70_reset_and_hazards.md section 2; decision D24, log 29). -/
def Obligations.StoreIntoCodeIsSeenByTheNextFetch : Prop :=
  ∀ (x k l : Reg) (s : State), s.index.toNat + x.val ≤ 0xFFF → s.MemoryCanonical → l.val = k.val + 1 → l.val ≤ x.val →
    s.index.toNat + k.val = s.pc.toNat + 2 →
    ∃ t, exec (.stRegs x) s = .next t ∧ t.fetch = .ok (s.readV k ++ s.readV l)

/-! ### Random, draw, keypad, timers -/

/-- CXNN masks a random byte with the register's own old value, and `nn` plays no part (44_random.md; 90_conflicts.md C9). The
byte is the free value of this draw, and the draw is used up: the counter is the model's own (log 5). -/
def Obligations.RndMasksWithTheRegister : Prop :=
  ∀ (x : Reg) (nn : Byte) (s : State), ∃ t, exec (.rnd x nn) s = .next t ∧
    t.readV x = Config.randomByte s.draws &&& s.readV x ∧ t.draws = s.draws + 1 ∧
    (∀ mm, exec (.rnd x mm) s = .next t) ∧
    (∀ b, (t.readV x).getLsbD b = true → (s.readV x).getLsbD b = true) ∧
    OtherRegistersKept x s t ∧ PcNext s t ∧ SameExcept [.v, .draws, .pc] s t

/-- DXYN inverts exactly the framebuffer bits under the sprite's set pixels and writes `VF`: 1 if one of those bits was set,
else 0 (45_draw.md; decision D15, log 23). -/
def Obligations.DrawXorsTheSpriteAndReportsCollision : Prop :=
  ∀ (x y : Reg) (n : Nibble) (s : State), (n.toNat = 0 ∨ s.index.toNat + n.toNat - 1 ≤ 0xFFF) →
    ∃ t, exec (.drw x y n) s = .next t ∧
      (∀ p, SpriteCovers s x y n.toNat p → Framebuffer.pixel t.fb p = !Framebuffer.pixel s.fb p) ∧
      (∀ p, ¬ SpriteCovers s x y n.toNat p → Framebuffer.pixel t.fb p = Framebuffer.pixel s.fb p) ∧
      ((∃ p, SpriteCovers s x y n.toNat p ∧ Framebuffer.pixel s.fb p = true) → (t.readV 15).toNat = 1) ∧
      ((¬ ∃ p, SpriteCovers s x y n.toNat p ∧ Framebuffer.pixel s.fb p = true) → (t.readV 15).toNat = 0) ∧
      OtherRegistersKept 15 s t ∧ PcNext s t ∧ SameExcept [.v, .fb, .pc] s t

/-- Two identical draws restore the framebuffer, and the second collides exactly when some set sprite pixel lands where the
screen was clear before the first (45_draw.md, D00's double-draw property). Between them anything may happen that keeps the
framebuffer, the coordinates, `I` and the sprite bytes. -/
def Obligations.TwoIdenticalDrawsRestoreTheScreen : Prop :=
  ∀ (x y : Reg) (n : Nibble) (s t u : State), (n.toNat = 0 ∨ s.index.toNat + n.toNat - 1 ≤ 0xFFF) →
    exec (.drw x y n) s = .next t → u.fb = t.fb → u.config = s.config → u.index = s.index →
    u.readV x = s.readV x → u.readV y = s.readV y →
    (∀ r, r < n.toNat → u.byteAt (s.index.toNat + r) = s.byteAt (s.index.toNat + r)) →
    ∃ w, exec (.drw x y n) u = .next w ∧ w.fb = s.fb ∧
      ((w.readV 15).toNat = 1 ↔ ∃ p, SpriteCovers s x y n.toNat p ∧ Framebuffer.pixel s.fb p = false)

/-- EX9E and EXA1 skip on the level of the key named by the low nibble of the register (46_keypad.md; the low nibble is
decision D13, log 24). -/
def Obligations.SkipsTestTheNamedKey : Prop :=
  ∀ (x : Reg) (s : State) (k : Key), k.val = (s.readV x).toNat % 16 →
    (∃ t, exec (.skp x) s = .next t ∧ PcSkip (s.keys[k] = true) s t ∧ SameExcept [.pc] s t) ∧
    ∃ t, exec (.sknp x) s = .next t ∧ PcSkip (s.keys[k] = false) s t ∧ SameExcept [.pc] s t

/-- FX0A enters the wait and changes nothing else, `PC` included (46_keypad.md; where a stepped wait resumes is decision D18,
log 26). -/
def Obligations.GetKeyEntersTheWait : Prop :=
  ∀ (x : Reg) (s : State), ∃ t, exec (.ldVxK x) s = .next t ∧
    (s.rs = .running → t.rs = .awaitingKey x .running) ∧ (s.rs ≠ .running → t.rs = .awaitingKey x .paused) ∧
    SameExcept [.rs] s t

/-- A key-down event during the wait stores the key code, goes past the FX0A, marks the key and resumes, in one step
(46_keypad.md; decisions D18, D19, logs 26, 27). -/
def Obligations.KeyDownCompletesTheWait : Prop :=
  ∀ (s : State) (x : Reg) (r : Resume) (k : Key), s.rs = .awaitingKey x r →
    s.schedule.next = .keyDown k → ∃ t, step s = .next t ∧
      (t.readV x).toNat = k.val ∧ OtherRegistersKept x s t ∧ PcNext s t ∧
      t.keys[k] = true ∧ (∀ j : Key, j ≠ k → t.keys[j] = s.keys[j]) ∧
      (r = .running → t.rs = .running) ∧ (r = .paused → t.rs = .paused) ∧ t.schedule = s.schedule.rest ∧
      SameExcept [.v, .pc, .keys, .rs, .schedule] s t

/-- R170, R171, R172: FX07 reads `DT`; FX15 and FX18 replace `DT` and `ST`. -/
def Obligations.TimerInstructionsMoveTheTimers : Prop :=
  ∀ (x : Reg) (s : State),
    (∃ t, exec (.ldVxDT x) s = .next t ∧ t.readV x = s.dt ∧ OtherRegistersKept x s t ∧ PcNext s t ∧
      SameExcept [.v, .pc] s t) ∧
    (∃ t, exec (.ldDTVx x) s = .next t ∧ t.dt = s.readV x ∧ PcNext s t ∧ SameExcept [.dt, .pc] s t) ∧
    ∃ t, exec (.ldSTVx x) s = .next t ∧ t.st = s.readV x ∧ PcNext s t ∧ SameExcept [.st, .pc] s t

/-! ### Rules about all instructions -/

/-- `VF` changes only under the six flag-writing instructions and under an instruction whose destination is `V[0xF]`: one of
those that write `V[x]`, with `x` = 0xF (10_state.md section 2; decisions D5, D9, log 17). -/
def Obligations.OnlyFlagWritersChangeVF : Prop :=
  ∀ (i : Instr) (s t : State), exec i s = .next t → t.readV 15 ≠ s.readV 15 →
    (∃ x y, i = .addReg x y ∨ i = .subReg x y ∨ i = .subnReg x y ∨ i = .shr x y ∨ i = .shl x y) ∨
    (∃ x y n, i = .drw x y n) ∨
    (∃ nn, i = .ldImm 15 nn ∨ i = .addImm 15 nn ∨ i = .rnd 15 nn) ∨
    (∃ y, i = .ldReg 15 y ∨ i = .orReg 15 y ∨ i = .andReg 15 y ∨ i = .xorReg 15 y) ∨
    i = .ldVxDT 15 ∨ i = .ldRegs 15

/-- The separate stores change only under their own instructions: `SP` and the stack under CALL and RET, `FB` under CLS and
DRW, `DT` under FX15, `ST` under FX18, the keypad under none (20_memory.md section 4, 40_control_flow.md). -/
def Obligations.SeparateStoresChangeOnlyUnderTheirInstructions : Prop :=
  ∀ (i : Instr) (s t : State), exec i s = .next t →
    (t.sp ≠ s.sp → i = .ret ∨ ∃ nnn, i = .call nnn) ∧ (t.stack ≠ s.stack → ∃ nnn, i = .call nnn) ∧
    (t.fb ≠ s.fb → i = .cls ∨ ∃ x y n, i = .drw x y n) ∧ t.keys = s.keys ∧
    (t.dt ≠ s.dt → ∃ x, i = .ldDTVx x) ∧ (t.st ≠ s.st → ∃ x, i = .ldSTVx x)

/-- Only FX33 and FX55 write memory, only at their own bytes, and never above 0xFFF (20_memory.md section 2). -/
def Obligations.OnlyBcdAndBlockStoreWriteMemory : Prop :=
  ∀ (i : Instr) (s t : State) (a : Nat), exec i s = .next t → t.byteAt a ≠ s.byteAt a →
    a ≤ 0xFFF ∧ s.index.toNat ≤ a ∧
    ((∃ x, i = .ldB x ∧ a ≤ s.index.toNat + 2) ∨ ∃ x : Reg, i = .stRegs x ∧ a ≤ s.index.toNat + x.val)

/-! ### Timer, keypad, run control, reset -/

/-- A tick counts both timers down by one, each stopping at 0, in one step, and changes nothing else (60_exceptions.md section
3). The run states in which it takes effect are decision D27 (log 28); that a tick is the next step of the schedule, used up by
the step, is the model's choice (log 4). -/
def Obligations.TickCountsBothTimersDown : Prop :=
  ∀ s : State, s.schedule.next = .tick →
    (s.rs ≠ .paused ∨ s.config.timersWhilePaused = true) → ∃ t, step s = .next t ∧
      t.dt.toNat = s.dt.toNat - 1 ∧ t.st.toNat = s.st.toNat - 1 ∧ t.schedule = s.schedule.rest ∧
      SameExcept [.dt, .st, .schedule] s t

/-- No tick is enabled in `Paused` when `TIMERS_WHILE_PAUSED` is false (60_exceptions.md section 3; decision D27,
log 28; that an offered tick which is not enabled is used up and changes nothing else is the model's choice, log 11). -/
def Obligations.NoTickWhilePausedWithoutThePolicy : Prop :=
  ∀ s : State, s.schedule.next = .tick → s.rs = .paused →
    s.config.timersWhilePaused = false → step s = .next { s with schedule := s.schedule.rest }

/-- D00's timer law (60_exceptions.md section 3) for every number of ticks: after `n` of them each timer holds its value less `n`, or 0 ("ticks never go
below 0 regardless of additional ticks"). The run states in which ticks take effect are decision D27 (log 28); that the ticks
are the first steps of the schedule, used up one by one, is the model's choice (log 4). -/
def Obligations.TimersAfterManyTicks : Prop :=
  ∀ (n : Nat) (s : State), (∀ k, k < n → (s.schedule.ahead k).next = .tick) →
    (s.rs ≠ .paused ∨ s.config.timersWhilePaused = true) → ∃ t, Sys2Proof.core.run n s = .next t ∧
      t.dt.toNat = s.dt.toNat - n ∧ t.st.toNat = s.st.toNat - n ∧ t.schedule = s.schedule.ahead n ∧
      SameExcept [.dt, .st, .schedule] s t

/-- A key event sets its key's level and nothing else: key-up in every run state, key-down in every one but the wait
(60_exceptions.md section 4; decisions D19, D28, logs 27, 28). -/
def Obligations.KeyEventsSetTheKeypad : Prop :=
  ∀ (s : State) (k : Key),
    (s.schedule.next = .keyUp k → ∃ t, step s = .next t ∧ t.keys[k] = false ∧
      (∀ j : Key, j ≠ k → t.keys[j] = s.keys[j]) ∧ t.schedule = s.schedule.rest ∧ SameExcept [.keys, .schedule] s t) ∧
    (s.schedule.next = .keyDown k → (∀ x r, s.rs ≠ .awaitingKey x r) → ∃ t, step s = .next t ∧ t.keys[k] = true ∧
      (∀ j : Key, j ≠ k → t.keys[j] = s.keys[j]) ∧ t.schedule = s.schedule.rest ∧ SameExcept [.keys, .schedule] s t)

/-- The commands `pause`, `play` and `step` change the run state as the transition table says and nothing else; every pair
not listed is ignored (60_exceptions.md section 6; decision D18, log 26). -/
def Obligations.CommandsFollowTheTransitionTable : Prop :=
  ∀ (s : State) (c : Command), s.schedule.next = .command c → c ≠ .restart →
    ∃ t, step s = .next t ∧ t.schedule = s.schedule.rest ∧ SameExcept [.rs, .schedule] s t ∧
      t.rs = (match c, s.rs with
        | .pause, .running => .paused
        | .pause, .awaitingKey _ _ => .paused
        | .play, .paused => .running
        | .single, .paused => .steppingOne
        | _, r => r)

/-- `restart`, in any run state, leads to the state of construction with the same configuration, image included: memory
reloaded, registers, timers, display and keypad reinitialised, a pending wait or a fault discarded (60_exceptions.md
section 6; the reset values are decision D20, log 3; that draws and schedule go on is the model's choice, logs 4 and 5). -/
def Obligations.RestartRebuildsTheMachine : Prop :=
  ∀ s : State, s.schedule.next = .command .restart →
    ∃ t, step s = .next t ∧ t.rs = .running ∧ t.config = s.config ∧ t.schedule = s.schedule.rest ∧ t.draws = s.draws ∧
      (∀ a, t.byteAt a = (State.initial s.config).byteAt a) ∧
      SameExcept [.draws, .schedule] (State.initial s.config) t

/-- What D00 itself fixes of the reset state (70_reset_and_hazards.md section 1), for every configuration a machine can be constructed from: `PC` at the
load address, the stack empty, font and image in memory, the framebuffer clear. -/
def Obligations.ResetStateTheSourceFixes : Prop :=
  ∀ c : Config, c.wf = true →
    (State.initial c).pc.toNat = c.loadBase.addr ∧ (State.initial c).sp.val = 0 ∧
    (∀ k : Fin 80, (State.initial c).byteAt (c.fontBase + k.val) = c.fontData[k]) ∧
    (∀ (k : Nat) (h : k < c.image.length), (State.initial c).byteAt (c.loadBase.addr + k) = c.image[k]) ∧
    ∀ p, Framebuffer.pixel (State.initial c).fb p = false

/-- The reset values D00 does not give: zero registers, index, stack entries and timers, keys up, zero memory outside font and
image, `Running` (the spec's decisions D20 and D31; log 3). -/
def Obligations.ResetValuesTheSpecDecides : Prop :=
  ∀ c : Config,
    (∀ x : Reg, (State.initial c).readV x = 0) ∧ (State.initial c).index = 0 ∧
    (∀ k : Fin 16, (State.initial c).stack[k] = 0) ∧ (State.initial c).dt = 0 ∧ (State.initial c).st = 0 ∧
    (∀ k : Key, (State.initial c).keys[k] = false) ∧ (State.initial c).rs = .running ∧
    ∀ a, (a < c.fontBase ∨ c.fontBase + 80 ≤ a) → (a < c.loadBase.addr ∨ c.loadBase.addr + c.image.length ≤ a) →
      (State.initial c).byteAt a = 0

/-- A machine is constructed exactly from an even-length image that fits and parameters in range; it is then in the reset
state, and otherwise construction answers a fault (70_reset_and_hazards.md section 1; the checks of the image are
decision D21). That parameters are checked at construction too, and that a failed image check is reported before a failed
parameter check, is the model's choice (log 8). -/
def Obligations.LoadAcceptsExactlyTheWellFormed : Prop :=
  ∀ c : Config,
    (c.image.length % 2 = 0 → c.loadBase.addr + c.image.length ≤ 4096 → c.fontBase + 80 ≤ 0x200 → 0 < c.cpuRate →
      load c = .next (State.initial c)) ∧
    (c.image.length % 2 = 1 ∨ 4096 < c.loadBase.addr + c.image.length → load c = .fault .imageRejected) ∧
    (c.image.length % 2 = 0 → c.loadBase.addr + c.image.length ≤ 4096 → 0x200 < c.fontBase + 80 ∨ c.cpuRate = 0 →
      load c = .fault .parameterOutOfRange)

/-- R32: no instruction, event or command changes the configuration; restart keeps it. -/
def Obligations.ConfigurationNeverChanges : Prop :=
  ∀ s t : State, step s = .next t → t.config = s.config

/-- The disassembly query classifies the bytes at `PC` exactly as the executor does (00_scope.md section 2; the faults' details
are decisions D7 and D17, logs 19 and 7; that it answers `none` above 0xFFE is the model's choice, log 33). -/
def Obligations.DisassemblyAgreesWithExecution : Prop :=
  ∀ s : State, s.cpuIsNext → (s.rs = .running ∨ s.rs = .steppingOne) →
    (∀ i, s.disassemble s.pc.toNat = some (.ok i) → step s = settleResult (exec i s.afterHead)) ∧
    (∀ e, s.disassemble s.pc.toNat = some (.error e) →
      ∃ t w, step s = .next t ∧ t.rs = .halted (.illegalInstruction s.pc w)) ∧
    (s.disassemble s.pc.toNat = none → ∃ t addr, step s = .next t ∧ t.rs = .halted (.addressOutOfRange s.pc addr))

/-- The outputs read the state: `sound_active` is true exactly while `ST > 0`; the framebuffer output has every bit of `FB`;
the state snapshot has every register, every stack entry, every byte of memory, the timers, the keypad, the run state and
`sound_active` (60_exceptions.md sections 3 and 5; decisions D26, D30, logs 30, 31). -/
def Obligations.OutputsReadTheState : Prop :=
  ∀ s : State, (s.soundActive = true ↔ 0 < s.st.toNat) ∧
    (∀ p, Framebuffer.pixel s.framebufferSnapshot p = Framebuffer.pixel s.fb p) ∧
    (∀ x : Reg, s.snapshot.v[x] = s.readV x) ∧ s.snapshot.index = s.index ∧ s.snapshot.pc = s.pc ∧
    s.snapshot.sp = s.sp ∧ (∀ k : Fin 16, s.snapshot.stack[k] = s.stack[k]) ∧
    s.snapshot.mem.length = 4096 ∧ (∀ a, a < 4096 → s.snapshot.mem[a]? = some (s.byteAt a)) ∧
    s.snapshot.dt = s.dt ∧ s.snapshot.st = s.st ∧ (∀ k : Key, s.snapshot.keys[k] = s.keys[k]) ∧
    s.snapshot.rs = s.rs ∧ s.snapshot.soundActive = s.soundActive

/-- A running program in a self-jump stays there: a CPU step changes nothing (70_reset_and_hazards.md section 4; that this is an end
is a convention, D23, log 12). -/
def Obligations.SelfJumpChangesNothing : Prop :=
  ∀ s : State, s.inSelfJump → s.cpuIsNext → step s = .next s.afterHead

/-! ### Invariants -/

/-- From every coherent state every step gives a coherent state: the program counter and the return addresses stay bounded, a
wait stands at its FX0A, and a recorded fault explains the halt: its address is the `PC` (decision D17, log 7) and its cause,
`AddressOutOfRange` included (decision D7, log 19), still stands there (`State.Raises`). -/
def Obligations.EveryStepKeepsCoherence : Prop :=
  ∀ s t : State, s.Coherent → step s = .next t → t.Coherent

/-- From every state whose memory is in canonical form (the model's own, log 6) every step gives such a state. -/
def Obligations.EveryStepKeepsTheMemoryCanonical : Prop :=
  ∀ s t : State, s.MemoryCanonical → step s = .next t → t.MemoryCanonical

/-- Both invariants hold after construction, from any configuration, and in `State.reset`, whose configuration is one a
machine can be constructed from. The configuration of `State.reset` is the model's choice (log 2), `Running` at construction
the spec's decision D31 (log 3), the canonical form of the memory the model's own (log 6). -/
def Obligations.ResetIsCoherentAndCanonical : Prop :=
  (∀ c : Config, (State.initial c).Coherent ∧ (State.initial c).MemoryCanonical) ∧
  State.reset.Coherent ∧ State.reset.MemoryCanonical ∧ State.reset.config.wf = true
end

