-- ==== Sys2Proof/Laws/Decode.lean ====
section
/-! SUPPORT. The fields of a word and the word of an instruction, as numbers (30_encoding.md R71, R72). -/

namespace Sys2Proof

theorem opOf_toNat (w : Word) : (opOf w).toNat = w.toNat / 4096 := by
  have := w.isLt
  simp [opOf, BitVec.extractLsb'_toNat, Nat.shiftRight_eq_div_pow]
  omega

theorem nOf_toNat (w : Word) : (nOf w).toNat = w.toNat % 16 := by
  simp [nOf, BitVec.extractLsb'_toNat]

theorem nnOf_toNat (w : Word) : (nnOf w).toNat = w.toNat % 256 := by
  simp [nnOf, BitVec.extractLsb'_toNat]

theorem nnnOf_toNat (w : Word) : (nnnOf w).toNat = w.toNat % 4096 := by
  simp [nnnOf, BitVec.extractLsb'_toNat]

theorem xOf_val (w : Word) : (xOf w).val = w.toNat / 256 % 16 := by
  simp [xOf, Nat.shiftRight_eq_div_pow]

theorem yOf_val (w : Word) : (yOf w).val = w.toNat / 16 % 16 := by
  simp [yOf, Nat.shiftRight_eq_div_pow]

theorem append_toNat {v w : Nat} (a : BitVec v) (b : BitVec w) : (a ++ b).toNat = a.toNat * 2 ^ w + b.toNat := by
  rw [BitVec.toNat_append, ← Nat.shiftLeft_add_eq_or_of_lt b.isLt, Nat.shiftLeft_eq]

theorem encodeNNN_toNat (op : Nibble) (nnn : Addr) : (encodeNNN op nnn).toNat = op.toNat * 4096 + nnn.toNat :=
  append_toNat op nnn

theorem encodeXNN_toNat (op : Nibble) (x : Reg) (nn : Byte) :
    (encodeXNN op x nn).toNat = op.toNat * 4096 + x.val * 256 + nn.toNat := by
  have h1 := append_toNat (op ++ regField x) nn
  have h2 := append_toNat op (regField x)
  have h3 : (regField x).toNat = x.val := rfl
  have h4 : (encodeXNN op x nn).toNat = (op ++ regField x ++ nn).toNat := rfl
  omega

theorem encodeXYN_toNat (op : Nibble) (x y : Reg) (n : Nibble) :
    (encodeXYN op x y n).toNat = op.toNat * 4096 + x.val * 256 + y.val * 16 + n.toNat := by
  have h1 := append_toNat (op ++ regField x ++ regField y) n
  have h2 := append_toNat (op ++ regField x) (regField y)
  have h3 := append_toNat op (regField x)
  have h4 : (regField x).toNat = x.val := rfl
  have h5 : (regField y).toNat = y.val := rfl
  have h6 : (encodeXYN op x y n).toNat = (op ++ regField x ++ regField y ++ n).toNat := rfl
  omega

/-- The bytes of an instruction make its word again (R54, R55). -/
theorem wordOfBytes_encodeBytes (w : Word) : wordOfBytes (w.extractLsb' 8 8) (w.extractLsb' 0 8) = w := by
  apply BitVec.eq_of_toNat_eq
  have h := append_toNat (w.extractLsb' 8 8) (w.extractLsb' 0 8)
  have hw := w.isLt
  have h' : (wordOfBytes (w.extractLsb' 8 8) (w.extractLsb' 0 8)).toNat =
    (w.extractLsb' 8 8 ++ w.extractLsb' 0 8).toNat := rfl
  rw [BitVec.extractLsb'_toNat, BitVec.extractLsb'_toNat, Nat.shiftRight_eq_div_pow, Nat.shiftRight_eq_div_pow] at h
  omega

end Sys2Proof
end

