-- ==== Sys2Proof/Laws/Display.lean ====
section
/-! SUPPORT. The laws of the framebuffer: what one flip does, and what a list of flips does. -/

namespace Sys2Proof.Machine

@[simp] theorem Framebuffer.pixel_blank (p : Pixel) : Framebuffer.pixel Framebuffer.blank p = false := by
  simp [Framebuffer.pixel, Framebuffer.blank]

@[simp] theorem Framebuffer.pixel_flip_same (fb : Framebuffer) (p : Pixel) :
    Framebuffer.pixel (Framebuffer.flip fb p) p = !Framebuffer.pixel fb p := by
  simp [Framebuffer.pixel, Framebuffer.flip]

theorem Framebuffer.pixel_flip_other (fb : Framebuffer) {p q : Pixel} (h : q ≠ p) :
    Framebuffer.pixel (Framebuffer.flip fb p) q = Framebuffer.pixel fb q := by
  obtain ⟨pr, pc⟩ := p
  obtain ⟨qr, qc⟩ := q
  by_cases hr : qr = pr
  · subst hr
    have hc : ¬ pc = qc := by rintro rfl; exact h rfl
    simp [Framebuffer.pixel, Framebuffer.flip, Fin.val_inj, hc]
  · simp [Framebuffer.pixel, Framebuffer.flip, Fin.val_inj, Ne.symm hr]

/-- Two framebuffers with the same pixels are equal. -/
theorem Framebuffer.ext_pixel {fb gb : Framebuffer} (h : ∀ p, Framebuffer.pixel fb p = Framebuffer.pixel gb p) :
    fb = gb := by
  apply Vector.ext
  intro r hr
  apply Vector.ext
  intro c hc
  exact h (⟨r, hr⟩, ⟨c, hc⟩)

/-- A pixel the list does not name keeps its value. -/
theorem flipPixels_pixel_notMem (ps : List Pixel) (fb : Framebuffer) (b : Bool) {q : Pixel} (h : q ∉ ps) :
    Framebuffer.pixel (flipPixels fb b ps).1 q = Framebuffer.pixel fb q := by
  induction ps generalizing fb b with
  | nil => rfl
  | cons p rest ih =>
    simp only [List.mem_cons, not_or] at h
    unfold flipPixels
    rw [ih _ _ h.2, Framebuffer.pixel_flip_other fb h.1]

/-- Where a pixel lands is what R156 says, wrapped or clipped. -/
theorem placePixel_eq_some_iff {edge : DrawEdge} {py px : Nat} {p : Pixel} :
    placePixel edge py px = some p ↔ PixelLandsAt edge py px p := by
  obtain ⟨r, c⟩ := p
  cases edge
  · simp [placePixel, PixelLandsAt, Fin.ext_iff, eq_comm]
  · have := r.isLt
    have := c.isLt
    simp only [placePixel, PixelLandsAt, reduceCtorEq, false_implies, true_and, true_implies]
    split
    · simp [Fin.ext_iff, eq_comm]
    · simp only [reduceCtorEq, false_iff]
      omega

end Sys2Proof.Machine
end

