-- ==== Sys2Proof/Laws/State.lean ====
section
/-! SUPPORT. One lemma per field per update of the state, so that no proof unfolds a record update. -/

namespace Sys2Proof.Machine

@[simp] theorem State.setV_v (s : State) (x : Reg) (b : Byte) : (s.setV x b).v = s.v.set x b := rfl
@[simp] theorem State.setV_index (s : State) (x : Reg) (b : Byte) : (s.setV x b).index = s.index := rfl
@[simp] theorem State.setV_pc (s : State) (x : Reg) (b : Byte) : (s.setV x b).pc = s.pc := rfl
@[simp] theorem State.setV_sp (s : State) (x : Reg) (b : Byte) : (s.setV x b).sp = s.sp := rfl
@[simp] theorem State.setV_stack (s : State) (x : Reg) (b : Byte) : (s.setV x b).stack = s.stack := rfl
@[simp] theorem State.setV_dt (s : State) (x : Reg) (b : Byte) : (s.setV x b).dt = s.dt := rfl
@[simp] theorem State.setV_st (s : State) (x : Reg) (b : Byte) : (s.setV x b).st = s.st := rfl
@[simp] theorem State.setV_mem (s : State) (x : Reg) (b : Byte) : (s.setV x b).mem = s.mem := rfl
@[simp] theorem State.setV_fb (s : State) (x : Reg) (b : Byte) : (s.setV x b).fb = s.fb := rfl
@[simp] theorem State.setV_keys (s : State) (x : Reg) (b : Byte) : (s.setV x b).keys = s.keys := rfl
@[simp] theorem State.setV_rs (s : State) (x : Reg) (b : Byte) : (s.setV x b).rs = s.rs := rfl
@[simp] theorem State.setV_config (s : State) (x : Reg) (b : Byte) : (s.setV x b).config = s.config := rfl
@[simp] theorem State.setV_draws (s : State) (x : Reg) (b : Byte) : (s.setV x b).draws = s.draws := rfl
@[simp] theorem State.setV_schedule (s : State) (x : Reg) (b : Byte) : (s.setV x b).schedule = s.schedule := rfl

@[simp] theorem State.setIndex_v (s : State) (w : Word) : (s.setIndex w).v = s.v := rfl
@[simp] theorem State.setIndex_index (s : State) (w : Word) : (s.setIndex w).index = w := rfl
@[simp] theorem State.setIndex_pc (s : State) (w : Word) : (s.setIndex w).pc = s.pc := rfl
@[simp] theorem State.setIndex_sp (s : State) (w : Word) : (s.setIndex w).sp = s.sp := rfl
@[simp] theorem State.setIndex_stack (s : State) (w : Word) : (s.setIndex w).stack = s.stack := rfl
@[simp] theorem State.setIndex_dt (s : State) (w : Word) : (s.setIndex w).dt = s.dt := rfl
@[simp] theorem State.setIndex_st (s : State) (w : Word) : (s.setIndex w).st = s.st := rfl
@[simp] theorem State.setIndex_mem (s : State) (w : Word) : (s.setIndex w).mem = s.mem := rfl
@[simp] theorem State.setIndex_fb (s : State) (w : Word) : (s.setIndex w).fb = s.fb := rfl
@[simp] theorem State.setIndex_keys (s : State) (w : Word) : (s.setIndex w).keys = s.keys := rfl
@[simp] theorem State.setIndex_rs (s : State) (w : Word) : (s.setIndex w).rs = s.rs := rfl
@[simp] theorem State.setIndex_config (s : State) (w : Word) : (s.setIndex w).config = s.config := rfl
@[simp] theorem State.setIndex_draws (s : State) (w : Word) : (s.setIndex w).draws = s.draws := rfl
@[simp] theorem State.setIndex_schedule (s : State) (w : Word) : (s.setIndex w).schedule = s.schedule := rfl

@[simp] theorem State.setPc_v (s : State) (w : Word) : (s.setPc w).v = s.v := rfl
@[simp] theorem State.setPc_index (s : State) (w : Word) : (s.setPc w).index = s.index := rfl
@[simp] theorem State.setPc_pc (s : State) (w : Word) : (s.setPc w).pc = w := rfl
@[simp] theorem State.setPc_sp (s : State) (w : Word) : (s.setPc w).sp = s.sp := rfl
@[simp] theorem State.setPc_stack (s : State) (w : Word) : (s.setPc w).stack = s.stack := rfl
@[simp] theorem State.setPc_dt (s : State) (w : Word) : (s.setPc w).dt = s.dt := rfl
@[simp] theorem State.setPc_st (s : State) (w : Word) : (s.setPc w).st = s.st := rfl
@[simp] theorem State.setPc_mem (s : State) (w : Word) : (s.setPc w).mem = s.mem := rfl
@[simp] theorem State.setPc_fb (s : State) (w : Word) : (s.setPc w).fb = s.fb := rfl
@[simp] theorem State.setPc_keys (s : State) (w : Word) : (s.setPc w).keys = s.keys := rfl
@[simp] theorem State.setPc_rs (s : State) (w : Word) : (s.setPc w).rs = s.rs := rfl
@[simp] theorem State.setPc_config (s : State) (w : Word) : (s.setPc w).config = s.config := rfl
@[simp] theorem State.setPc_draws (s : State) (w : Word) : (s.setPc w).draws = s.draws := rfl
@[simp] theorem State.setPc_schedule (s : State) (w : Word) : (s.setPc w).schedule = s.schedule := rfl

@[simp] theorem State.setDt_v (s : State) (b : Byte) : (s.setDt b).v = s.v := rfl
@[simp] theorem State.setDt_index (s : State) (b : Byte) : (s.setDt b).index = s.index := rfl
@[simp] theorem State.setDt_pc (s : State) (b : Byte) : (s.setDt b).pc = s.pc := rfl
@[simp] theorem State.setDt_sp (s : State) (b : Byte) : (s.setDt b).sp = s.sp := rfl
@[simp] theorem State.setDt_stack (s : State) (b : Byte) : (s.setDt b).stack = s.stack := rfl
@[simp] theorem State.setDt_dt (s : State) (b : Byte) : (s.setDt b).dt = b := rfl
@[simp] theorem State.setDt_st (s : State) (b : Byte) : (s.setDt b).st = s.st := rfl
@[simp] theorem State.setDt_mem (s : State) (b : Byte) : (s.setDt b).mem = s.mem := rfl
@[simp] theorem State.setDt_fb (s : State) (b : Byte) : (s.setDt b).fb = s.fb := rfl
@[simp] theorem State.setDt_keys (s : State) (b : Byte) : (s.setDt b).keys = s.keys := rfl
@[simp] theorem State.setDt_rs (s : State) (b : Byte) : (s.setDt b).rs = s.rs := rfl
@[simp] theorem State.setDt_config (s : State) (b : Byte) : (s.setDt b).config = s.config := rfl
@[simp] theorem State.setDt_draws (s : State) (b : Byte) : (s.setDt b).draws = s.draws := rfl
@[simp] theorem State.setDt_schedule (s : State) (b : Byte) : (s.setDt b).schedule = s.schedule := rfl

@[simp] theorem State.setSt_v (s : State) (b : Byte) : (s.setSt b).v = s.v := rfl
@[simp] theorem State.setSt_index (s : State) (b : Byte) : (s.setSt b).index = s.index := rfl
@[simp] theorem State.setSt_pc (s : State) (b : Byte) : (s.setSt b).pc = s.pc := rfl
@[simp] theorem State.setSt_sp (s : State) (b : Byte) : (s.setSt b).sp = s.sp := rfl
@[simp] theorem State.setSt_stack (s : State) (b : Byte) : (s.setSt b).stack = s.stack := rfl
@[simp] theorem State.setSt_dt (s : State) (b : Byte) : (s.setSt b).dt = s.dt := rfl
@[simp] theorem State.setSt_st (s : State) (b : Byte) : (s.setSt b).st = b := rfl
@[simp] theorem State.setSt_mem (s : State) (b : Byte) : (s.setSt b).mem = s.mem := rfl
@[simp] theorem State.setSt_fb (s : State) (b : Byte) : (s.setSt b).fb = s.fb := rfl
@[simp] theorem State.setSt_keys (s : State) (b : Byte) : (s.setSt b).keys = s.keys := rfl
@[simp] theorem State.setSt_rs (s : State) (b : Byte) : (s.setSt b).rs = s.rs := rfl
@[simp] theorem State.setSt_config (s : State) (b : Byte) : (s.setSt b).config = s.config := rfl
@[simp] theorem State.setSt_draws (s : State) (b : Byte) : (s.setSt b).draws = s.draws := rfl
@[simp] theorem State.setSt_schedule (s : State) (b : Byte) : (s.setSt b).schedule = s.schedule := rfl

@[simp] theorem State.setFb_v (s : State) (fb : Framebuffer) : (s.setFb fb).v = s.v := rfl
@[simp] theorem State.setFb_index (s : State) (fb : Framebuffer) : (s.setFb fb).index = s.index := rfl
@[simp] theorem State.setFb_pc (s : State) (fb : Framebuffer) : (s.setFb fb).pc = s.pc := rfl
@[simp] theorem State.setFb_sp (s : State) (fb : Framebuffer) : (s.setFb fb).sp = s.sp := rfl
@[simp] theorem State.setFb_stack (s : State) (fb : Framebuffer) : (s.setFb fb).stack = s.stack := rfl
@[simp] theorem State.setFb_dt (s : State) (fb : Framebuffer) : (s.setFb fb).dt = s.dt := rfl
@[simp] theorem State.setFb_st (s : State) (fb : Framebuffer) : (s.setFb fb).st = s.st := rfl
@[simp] theorem State.setFb_mem (s : State) (fb : Framebuffer) : (s.setFb fb).mem = s.mem := rfl
@[simp] theorem State.setFb_fb (s : State) (fb : Framebuffer) : (s.setFb fb).fb = fb := rfl
@[simp] theorem State.setFb_keys (s : State) (fb : Framebuffer) : (s.setFb fb).keys = s.keys := rfl
@[simp] theorem State.setFb_rs (s : State) (fb : Framebuffer) : (s.setFb fb).rs = s.rs := rfl
@[simp] theorem State.setFb_config (s : State) (fb : Framebuffer) : (s.setFb fb).config = s.config := rfl
@[simp] theorem State.setFb_draws (s : State) (fb : Framebuffer) : (s.setFb fb).draws = s.draws := rfl
@[simp] theorem State.setFb_schedule (s : State) (fb : Framebuffer) : (s.setFb fb).schedule = s.schedule := rfl

@[simp] theorem State.setRs_v (s : State) (r : RunState) : (s.setRs r).v = s.v := rfl
@[simp] theorem State.setRs_index (s : State) (r : RunState) : (s.setRs r).index = s.index := rfl
@[simp] theorem State.setRs_pc (s : State) (r : RunState) : (s.setRs r).pc = s.pc := rfl
@[simp] theorem State.setRs_sp (s : State) (r : RunState) : (s.setRs r).sp = s.sp := rfl
@[simp] theorem State.setRs_stack (s : State) (r : RunState) : (s.setRs r).stack = s.stack := rfl
@[simp] theorem State.setRs_dt (s : State) (r : RunState) : (s.setRs r).dt = s.dt := rfl
@[simp] theorem State.setRs_st (s : State) (r : RunState) : (s.setRs r).st = s.st := rfl
@[simp] theorem State.setRs_mem (s : State) (r : RunState) : (s.setRs r).mem = s.mem := rfl
@[simp] theorem State.setRs_fb (s : State) (r : RunState) : (s.setRs r).fb = s.fb := rfl
@[simp] theorem State.setRs_keys (s : State) (r : RunState) : (s.setRs r).keys = s.keys := rfl
@[simp] theorem State.setRs_rs (s : State) (r : RunState) : (s.setRs r).rs = r := rfl
@[simp] theorem State.setRs_config (s : State) (r : RunState) : (s.setRs r).config = s.config := rfl
@[simp] theorem State.setRs_draws (s : State) (r : RunState) : (s.setRs r).draws = s.draws := rfl
@[simp] theorem State.setRs_schedule (s : State) (r : RunState) : (s.setRs r).schedule = s.schedule := rfl

@[simp] theorem State.setKey_v (s : State) (k : Key) (b : Bool) : (s.setKey k b).v = s.v := rfl
@[simp] theorem State.setKey_index (s : State) (k : Key) (b : Bool) : (s.setKey k b).index = s.index := rfl
@[simp] theorem State.setKey_pc (s : State) (k : Key) (b : Bool) : (s.setKey k b).pc = s.pc := rfl
@[simp] theorem State.setKey_sp (s : State) (k : Key) (b : Bool) : (s.setKey k b).sp = s.sp := rfl
@[simp] theorem State.setKey_stack (s : State) (k : Key) (b : Bool) : (s.setKey k b).stack = s.stack := rfl
@[simp] theorem State.setKey_dt (s : State) (k : Key) (b : Bool) : (s.setKey k b).dt = s.dt := rfl
@[simp] theorem State.setKey_st (s : State) (k : Key) (b : Bool) : (s.setKey k b).st = s.st := rfl
@[simp] theorem State.setKey_mem (s : State) (k : Key) (b : Bool) : (s.setKey k b).mem = s.mem := rfl
@[simp] theorem State.setKey_fb (s : State) (k : Key) (b : Bool) : (s.setKey k b).fb = s.fb := rfl
@[simp] theorem State.setKey_keys (s : State) (k : Key) (b : Bool) : (s.setKey k b).keys = s.keys.set k b := rfl
@[simp] theorem State.setKey_rs (s : State) (k : Key) (b : Bool) : (s.setKey k b).rs = s.rs := rfl
@[simp] theorem State.setKey_config (s : State) (k : Key) (b : Bool) : (s.setKey k b).config = s.config := rfl
@[simp] theorem State.setKey_draws (s : State) (k : Key) (b : Bool) : (s.setKey k b).draws = s.draws := rfl
@[simp] theorem State.setKey_schedule (s : State) (k : Key) (b : Bool) : (s.setKey k b).schedule = s.schedule := rfl

@[simp] theorem State.advance_v (s : State) : (s.advance).v = s.v := rfl
@[simp] theorem State.advance_index (s : State) : (s.advance).index = s.index := rfl
@[simp] theorem State.advance_pc (s : State) : (s.advance).pc = s.pc + 2 := rfl
@[simp] theorem State.advance_sp (s : State) : (s.advance).sp = s.sp := rfl
@[simp] theorem State.advance_stack (s : State) : (s.advance).stack = s.stack := rfl
@[simp] theorem State.advance_dt (s : State) : (s.advance).dt = s.dt := rfl
@[simp] theorem State.advance_st (s : State) : (s.advance).st = s.st := rfl
@[simp] theorem State.advance_mem (s : State) : (s.advance).mem = s.mem := rfl
@[simp] theorem State.advance_fb (s : State) : (s.advance).fb = s.fb := rfl
@[simp] theorem State.advance_keys (s : State) : (s.advance).keys = s.keys := rfl
@[simp] theorem State.advance_rs (s : State) : (s.advance).rs = s.rs := rfl
@[simp] theorem State.advance_config (s : State) : (s.advance).config = s.config := rfl
@[simp] theorem State.advance_draws (s : State) : (s.advance).draws = s.draws := rfl
@[simp] theorem State.advance_schedule (s : State) : (s.advance).schedule = s.schedule := rfl

@[simp] theorem State.pop_v (s : State) : (s.pop).v = s.v := rfl
@[simp] theorem State.pop_index (s : State) : (s.pop).index = s.index := rfl
@[simp] theorem State.pop_pc (s : State) : (s.pop).pc = s.pc := rfl
@[simp] theorem State.pop_sp (s : State) : (s.pop).sp = ⟨s.sp.val - 1, by omega⟩ := rfl
@[simp] theorem State.pop_stack (s : State) : (s.pop).stack = s.stack := rfl
@[simp] theorem State.pop_dt (s : State) : (s.pop).dt = s.dt := rfl
@[simp] theorem State.pop_st (s : State) : (s.pop).st = s.st := rfl
@[simp] theorem State.pop_mem (s : State) : (s.pop).mem = s.mem := rfl
@[simp] theorem State.pop_fb (s : State) : (s.pop).fb = s.fb := rfl
@[simp] theorem State.pop_keys (s : State) : (s.pop).keys = s.keys := rfl
@[simp] theorem State.pop_rs (s : State) : (s.pop).rs = s.rs := rfl
@[simp] theorem State.pop_config (s : State) : (s.pop).config = s.config := rfl
@[simp] theorem State.pop_draws (s : State) : (s.pop).draws = s.draws := rfl
@[simp] theorem State.pop_schedule (s : State) : (s.pop).schedule = s.schedule := rfl

@[simp] theorem State.storeBytes_v (s : State) (a : Nat) (bs : List Byte) : (s.storeBytes a bs).v = s.v := rfl
@[simp] theorem State.storeBytes_index (s : State) (a : Nat) (bs : List Byte) : (s.storeBytes a bs).index = s.index := rfl
@[simp] theorem State.storeBytes_pc (s : State) (a : Nat) (bs : List Byte) : (s.storeBytes a bs).pc = s.pc := rfl
@[simp] theorem State.storeBytes_sp (s : State) (a : Nat) (bs : List Byte) : (s.storeBytes a bs).sp = s.sp := rfl
@[simp] theorem State.storeBytes_stack (s : State) (a : Nat) (bs : List Byte) : (s.storeBytes a bs).stack = s.stack := rfl
@[simp] theorem State.storeBytes_dt (s : State) (a : Nat) (bs : List Byte) : (s.storeBytes a bs).dt = s.dt := rfl
@[simp] theorem State.storeBytes_st (s : State) (a : Nat) (bs : List Byte) : (s.storeBytes a bs).st = s.st := rfl
@[simp] theorem State.storeBytes_mem (s : State) (a : Nat) (bs : List Byte) : (s.storeBytes a bs).mem = Memory.writeBytes s.config s.mem a bs := rfl
@[simp] theorem State.storeBytes_fb (s : State) (a : Nat) (bs : List Byte) : (s.storeBytes a bs).fb = s.fb := rfl
@[simp] theorem State.storeBytes_keys (s : State) (a : Nat) (bs : List Byte) : (s.storeBytes a bs).keys = s.keys := rfl
@[simp] theorem State.storeBytes_rs (s : State) (a : Nat) (bs : List Byte) : (s.storeBytes a bs).rs = s.rs := rfl
@[simp] theorem State.storeBytes_config (s : State) (a : Nat) (bs : List Byte) : (s.storeBytes a bs).config = s.config := rfl
@[simp] theorem State.storeBytes_draws (s : State) (a : Nat) (bs : List Byte) : (s.storeBytes a bs).draws = s.draws := rfl
@[simp] theorem State.storeBytes_schedule (s : State) (a : Nat) (bs : List Byte) : (s.storeBytes a bs).schedule = s.schedule := rfl

@[simp] theorem State.loadRegisterBlock_v (s : State) (x : Reg) : (s.loadRegisterBlock x).v = Vector.ofFn fun k => if k ≤ x then s.byteAt (s.index.toNat + k.val) else s.v[k] := rfl
@[simp] theorem State.loadRegisterBlock_index (s : State) (x : Reg) : (s.loadRegisterBlock x).index = s.index := rfl
@[simp] theorem State.loadRegisterBlock_pc (s : State) (x : Reg) : (s.loadRegisterBlock x).pc = s.pc := rfl
@[simp] theorem State.loadRegisterBlock_sp (s : State) (x : Reg) : (s.loadRegisterBlock x).sp = s.sp := rfl
@[simp] theorem State.loadRegisterBlock_stack (s : State) (x : Reg) : (s.loadRegisterBlock x).stack = s.stack := rfl
@[simp] theorem State.loadRegisterBlock_dt (s : State) (x : Reg) : (s.loadRegisterBlock x).dt = s.dt := rfl
@[simp] theorem State.loadRegisterBlock_st (s : State) (x : Reg) : (s.loadRegisterBlock x).st = s.st := rfl
@[simp] theorem State.loadRegisterBlock_mem (s : State) (x : Reg) : (s.loadRegisterBlock x).mem = s.mem := rfl
@[simp] theorem State.loadRegisterBlock_fb (s : State) (x : Reg) : (s.loadRegisterBlock x).fb = s.fb := rfl
@[simp] theorem State.loadRegisterBlock_keys (s : State) (x : Reg) : (s.loadRegisterBlock x).keys = s.keys := rfl
@[simp] theorem State.loadRegisterBlock_rs (s : State) (x : Reg) : (s.loadRegisterBlock x).rs = s.rs := rfl
@[simp] theorem State.loadRegisterBlock_config (s : State) (x : Reg) : (s.loadRegisterBlock x).config = s.config := rfl
@[simp] theorem State.loadRegisterBlock_draws (s : State) (x : Reg) : (s.loadRegisterBlock x).draws = s.draws := rfl
@[simp] theorem State.loadRegisterBlock_schedule (s : State) (x : Reg) : (s.loadRegisterBlock x).schedule = s.schedule := rfl

@[simp] theorem State.countDraw_v (s : State) : (s.countDraw).v = s.v := rfl
@[simp] theorem State.countDraw_index (s : State) : (s.countDraw).index = s.index := rfl
@[simp] theorem State.countDraw_pc (s : State) : (s.countDraw).pc = s.pc := rfl
@[simp] theorem State.countDraw_sp (s : State) : (s.countDraw).sp = s.sp := rfl
@[simp] theorem State.countDraw_stack (s : State) : (s.countDraw).stack = s.stack := rfl
@[simp] theorem State.countDraw_dt (s : State) : (s.countDraw).dt = s.dt := rfl
@[simp] theorem State.countDraw_st (s : State) : (s.countDraw).st = s.st := rfl
@[simp] theorem State.countDraw_mem (s : State) : (s.countDraw).mem = s.mem := rfl
@[simp] theorem State.countDraw_fb (s : State) : (s.countDraw).fb = s.fb := rfl
@[simp] theorem State.countDraw_keys (s : State) : (s.countDraw).keys = s.keys := rfl
@[simp] theorem State.countDraw_rs (s : State) : (s.countDraw).rs = s.rs := rfl
@[simp] theorem State.countDraw_config (s : State) : (s.countDraw).config = s.config := rfl
@[simp] theorem State.countDraw_draws (s : State) : (s.countDraw).draws = s.draws + 1 := rfl
@[simp] theorem State.countDraw_schedule (s : State) : (s.countDraw).schedule = s.schedule := rfl

@[simp] theorem State.setSchedule_v (s : State) (c : Schedule) : (s.setSchedule c).v = s.v := rfl
@[simp] theorem State.setSchedule_index (s : State) (c : Schedule) : (s.setSchedule c).index = s.index := rfl
@[simp] theorem State.setSchedule_pc (s : State) (c : Schedule) : (s.setSchedule c).pc = s.pc := rfl
@[simp] theorem State.setSchedule_sp (s : State) (c : Schedule) : (s.setSchedule c).sp = s.sp := rfl
@[simp] theorem State.setSchedule_stack (s : State) (c : Schedule) : (s.setSchedule c).stack = s.stack := rfl
@[simp] theorem State.setSchedule_dt (s : State) (c : Schedule) : (s.setSchedule c).dt = s.dt := rfl
@[simp] theorem State.setSchedule_st (s : State) (c : Schedule) : (s.setSchedule c).st = s.st := rfl
@[simp] theorem State.setSchedule_mem (s : State) (c : Schedule) : (s.setSchedule c).mem = s.mem := rfl
@[simp] theorem State.setSchedule_fb (s : State) (c : Schedule) : (s.setSchedule c).fb = s.fb := rfl
@[simp] theorem State.setSchedule_keys (s : State) (c : Schedule) : (s.setSchedule c).keys = s.keys := rfl
@[simp] theorem State.setSchedule_rs (s : State) (c : Schedule) : (s.setSchedule c).rs = s.rs := rfl
@[simp] theorem State.setSchedule_config (s : State) (c : Schedule) : (s.setSchedule c).config = s.config := rfl
@[simp] theorem State.setSchedule_draws (s : State) (c : Schedule) : (s.setSchedule c).draws = s.draws := rfl
@[simp] theorem State.setSchedule_schedule (s : State) (c : Schedule) : (s.setSchedule c).schedule = c := rfl

theorem State.setFlag_eq (s : State) (f : Bool) : s.setFlag f = s.setV regVF (flagByte f) := rfl

theorem State.setResultFlag_eq (s : State) (x : Reg) (r : Byte) (f : Bool) :
    s.setResultFlag x r f = (s.setV x r).setFlag f := rfl

@[simp] theorem State.setFlag_index (s : State) (f : Bool) : (s.setFlag f).index = s.index := rfl
@[simp] theorem State.setFlag_pc (s : State) (f : Bool) : (s.setFlag f).pc = s.pc := rfl
@[simp] theorem State.setFlag_sp (s : State) (f : Bool) : (s.setFlag f).sp = s.sp := rfl
@[simp] theorem State.setFlag_stack (s : State) (f : Bool) : (s.setFlag f).stack = s.stack := rfl
@[simp] theorem State.setFlag_dt (s : State) (f : Bool) : (s.setFlag f).dt = s.dt := rfl
@[simp] theorem State.setFlag_st (s : State) (f : Bool) : (s.setFlag f).st = s.st := rfl
@[simp] theorem State.setFlag_mem (s : State) (f : Bool) : (s.setFlag f).mem = s.mem := rfl
@[simp] theorem State.setFlag_fb (s : State) (f : Bool) : (s.setFlag f).fb = s.fb := rfl
@[simp] theorem State.setFlag_keys (s : State) (f : Bool) : (s.setFlag f).keys = s.keys := rfl
@[simp] theorem State.setFlag_rs (s : State) (f : Bool) : (s.setFlag f).rs = s.rs := rfl
@[simp] theorem State.setFlag_config (s : State) (f : Bool) : (s.setFlag f).config = s.config := rfl
@[simp] theorem State.setFlag_draws (s : State) (f : Bool) : (s.setFlag f).draws = s.draws := rfl
@[simp] theorem State.setFlag_schedule (s : State) (f : Bool) : (s.setFlag f).schedule = s.schedule := rfl
@[simp] theorem State.setResultFlag_index (s : State) (x : Reg) (r : Byte) (f : Bool) : (s.setResultFlag x r f).index = s.index := rfl
@[simp] theorem State.setResultFlag_pc (s : State) (x : Reg) (r : Byte) (f : Bool) : (s.setResultFlag x r f).pc = s.pc := rfl
@[simp] theorem State.setResultFlag_sp (s : State) (x : Reg) (r : Byte) (f : Bool) : (s.setResultFlag x r f).sp = s.sp := rfl
@[simp] theorem State.setResultFlag_stack (s : State) (x : Reg) (r : Byte) (f : Bool) : (s.setResultFlag x r f).stack = s.stack := rfl
@[simp] theorem State.setResultFlag_dt (s : State) (x : Reg) (r : Byte) (f : Bool) : (s.setResultFlag x r f).dt = s.dt := rfl
@[simp] theorem State.setResultFlag_st (s : State) (x : Reg) (r : Byte) (f : Bool) : (s.setResultFlag x r f).st = s.st := rfl
@[simp] theorem State.setResultFlag_mem (s : State) (x : Reg) (r : Byte) (f : Bool) : (s.setResultFlag x r f).mem = s.mem := rfl
@[simp] theorem State.setResultFlag_fb (s : State) (x : Reg) (r : Byte) (f : Bool) : (s.setResultFlag x r f).fb = s.fb := rfl
@[simp] theorem State.setResultFlag_keys (s : State) (x : Reg) (r : Byte) (f : Bool) : (s.setResultFlag x r f).keys = s.keys := rfl
@[simp] theorem State.setResultFlag_rs (s : State) (x : Reg) (r : Byte) (f : Bool) : (s.setResultFlag x r f).rs = s.rs := rfl
@[simp] theorem State.setResultFlag_config (s : State) (x : Reg) (r : Byte) (f : Bool) : (s.setResultFlag x r f).config = s.config := rfl
@[simp] theorem State.setResultFlag_draws (s : State) (x : Reg) (r : Byte) (f : Bool) : (s.setResultFlag x r f).draws = s.draws := rfl
@[simp] theorem State.setResultFlag_schedule (s : State) (x : Reg) (r : Byte) (f : Bool) : (s.setResultFlag x r f).schedule = s.schedule := rfl

@[simp] theorem State.push_v (s : State) (w : Word) : (s.push w).v = s.v := by unfold State.push; split <;> rfl
@[simp] theorem State.push_index (s : State) (w : Word) : (s.push w).index = s.index := by unfold State.push; split <;> rfl
@[simp] theorem State.push_pc (s : State) (w : Word) : (s.push w).pc = s.pc := by unfold State.push; split <;> rfl
@[simp] theorem State.push_dt (s : State) (w : Word) : (s.push w).dt = s.dt := by unfold State.push; split <;> rfl
@[simp] theorem State.push_st (s : State) (w : Word) : (s.push w).st = s.st := by unfold State.push; split <;> rfl
@[simp] theorem State.push_mem (s : State) (w : Word) : (s.push w).mem = s.mem := by unfold State.push; split <;> rfl
@[simp] theorem State.push_fb (s : State) (w : Word) : (s.push w).fb = s.fb := by unfold State.push; split <;> rfl
@[simp] theorem State.push_keys (s : State) (w : Word) : (s.push w).keys = s.keys := by unfold State.push; split <;> rfl
@[simp] theorem State.push_rs (s : State) (w : Word) : (s.push w).rs = s.rs := by unfold State.push; split <;> rfl
@[simp] theorem State.push_config (s : State) (w : Word) : (s.push w).config = s.config := by unfold State.push; split <;> rfl
@[simp] theorem State.push_draws (s : State) (w : Word) : (s.push w).draws = s.draws := by unfold State.push; split <;> rfl
@[simp] theorem State.push_schedule (s : State) (w : Word) : (s.push w).schedule = s.schedule := by unfold State.push; split <;> rfl

@[simp] theorem State.skipIf_v (s : State) (c : Bool) : (s.skipIf c).v = s.v := by unfold State.skipIf; split <;> rfl
@[simp] theorem State.skipIf_index (s : State) (c : Bool) : (s.skipIf c).index = s.index := by unfold State.skipIf; split <;> rfl
@[simp] theorem State.skipIf_sp (s : State) (c : Bool) : (s.skipIf c).sp = s.sp := by unfold State.skipIf; split <;> rfl
@[simp] theorem State.skipIf_stack (s : State) (c : Bool) : (s.skipIf c).stack = s.stack := by unfold State.skipIf; split <;> rfl
@[simp] theorem State.skipIf_dt (s : State) (c : Bool) : (s.skipIf c).dt = s.dt := by unfold State.skipIf; split <;> rfl
@[simp] theorem State.skipIf_st (s : State) (c : Bool) : (s.skipIf c).st = s.st := by unfold State.skipIf; split <;> rfl
@[simp] theorem State.skipIf_mem (s : State) (c : Bool) : (s.skipIf c).mem = s.mem := by unfold State.skipIf; split <;> rfl
@[simp] theorem State.skipIf_fb (s : State) (c : Bool) : (s.skipIf c).fb = s.fb := by unfold State.skipIf; split <;> rfl
@[simp] theorem State.skipIf_keys (s : State) (c : Bool) : (s.skipIf c).keys = s.keys := by unfold State.skipIf; split <;> rfl
@[simp] theorem State.skipIf_rs (s : State) (c : Bool) : (s.skipIf c).rs = s.rs := by unfold State.skipIf; split <;> rfl
@[simp] theorem State.skipIf_config (s : State) (c : Bool) : (s.skipIf c).config = s.config := by unfold State.skipIf; split <;> rfl
@[simp] theorem State.skipIf_draws (s : State) (c : Bool) : (s.skipIf c).draws = s.draws := by unfold State.skipIf; split <;> rfl
@[simp] theorem State.skipIf_schedule (s : State) (c : Bool) : (s.skipIf c).schedule = s.schedule := by unfold State.skipIf; split <;> rfl

@[simp] theorem State.settle_v (s : State) : s.settle.v = s.v := by unfold State.settle; split <;> rfl
@[simp] theorem State.settle_index (s : State) : s.settle.index = s.index := by unfold State.settle; split <;> rfl
@[simp] theorem State.settle_pc (s : State) : s.settle.pc = s.pc := by unfold State.settle; split <;> rfl
@[simp] theorem State.settle_sp (s : State) : s.settle.sp = s.sp := by unfold State.settle; split <;> rfl
@[simp] theorem State.settle_stack (s : State) : s.settle.stack = s.stack := by unfold State.settle; split <;> rfl
@[simp] theorem State.settle_dt (s : State) : s.settle.dt = s.dt := by unfold State.settle; split <;> rfl
@[simp] theorem State.settle_st (s : State) : s.settle.st = s.st := by unfold State.settle; split <;> rfl
@[simp] theorem State.settle_mem (s : State) : s.settle.mem = s.mem := by unfold State.settle; split <;> rfl
@[simp] theorem State.settle_fb (s : State) : s.settle.fb = s.fb := by unfold State.settle; split <;> rfl
@[simp] theorem State.settle_keys (s : State) : s.settle.keys = s.keys := by unfold State.settle; split <;> rfl
@[simp] theorem State.settle_config (s : State) : s.settle.config = s.config := by unfold State.settle; split <;> rfl
@[simp] theorem State.settle_draws (s : State) : s.settle.draws = s.draws := by unfold State.settle; split <;> rfl
@[simp] theorem State.settle_schedule (s : State) : s.settle.schedule = s.schedule := by unfold State.settle; split <;> rfl

@[simp] theorem State.tick_v (s : State) : s.tick.v = s.v := by unfold State.tick; split <;> rfl
@[simp] theorem State.tick_index (s : State) : s.tick.index = s.index := by unfold State.tick; split <;> rfl
@[simp] theorem State.tick_pc (s : State) : s.tick.pc = s.pc := by unfold State.tick; split <;> rfl
@[simp] theorem State.tick_sp (s : State) : s.tick.sp = s.sp := by unfold State.tick; split <;> rfl
@[simp] theorem State.tick_stack (s : State) : s.tick.stack = s.stack := by unfold State.tick; split <;> rfl
@[simp] theorem State.tick_mem (s : State) : s.tick.mem = s.mem := by unfold State.tick; split <;> rfl
@[simp] theorem State.tick_fb (s : State) : s.tick.fb = s.fb := by unfold State.tick; split <;> rfl
@[simp] theorem State.tick_keys (s : State) : s.tick.keys = s.keys := by unfold State.tick; split <;> rfl
@[simp] theorem State.tick_rs (s : State) : s.tick.rs = s.rs := by unfold State.tick; split <;> rfl
@[simp] theorem State.tick_config (s : State) : s.tick.config = s.config := by unfold State.tick; split <;> rfl
@[simp] theorem State.tick_draws (s : State) : s.tick.draws = s.draws := by unfold State.tick; split <;> rfl
@[simp] theorem State.tick_schedule (s : State) : s.tick.schedule = s.schedule := by unfold State.tick; split <;> rfl

@[simp] theorem State.readV_setV_same (s : State) (x : Reg) (b : Byte) : (s.setV x b).readV x = b := by
  simp [State.readV]

theorem State.readV_setV_other (s : State) {x j : Reg} (b : Byte) (h : j ≠ x) : (s.setV x b).readV j = s.readV j := by
  simp [State.readV, Fin.val_inj, Ne.symm h]

theorem State.readV_setV (s : State) (x j : Reg) (b : Byte) :
    (s.setV x b).readV j = if j = x then b else s.readV j := by
  split
  case isTrue h => subst h; simp
  case isFalse h => exact s.readV_setV_other b h

end Sys2Proof.Machine
end

