-- ==== Sys2Proof/Laws/Ends.lean ====
section
/-! SUPPORT. The ends of a run (70_reset_and_hazards.md R265): "exactly one of these ways", and never `Paused`. -/

namespace Sys2Proof.Machine

/-- (a) is the run state `Halted`. -/
theorem State.isHalted_iff (s : State) : s.isHalted = true ↔ ∃ f, s.rs = .halted f := by
  unfold State.isHalted
  cases s.rs <;> simp

/-- An end fixes the run state. -/
theorem State.EndsBy.rs {s : State} {e : RunEnd} (h : s.EndsBy e) :
    (e = .fault ∧ ∃ f, s.rs = .halted f) ∨ (e = .selfJump ∧ s.rs = .running) ∨
      (e = .wait ∧ ∃ x r, s.rs = .awaitingKey x r) := by
  cases e with
  | fault => exact .inl ⟨rfl, s.isHalted_iff.1 h⟩
  | selfJump => exact .inr (.inl ⟨rfl, h.1⟩)
  | wait => exact .inr (.inr ⟨rfl, h.1⟩)

/-- A run ends in at most one of the three ways. -/
theorem State.EndsBy.unique {s : State} {e e' : RunEnd} (h : s.EndsBy e) (h' : s.EndsBy e') : e = e' := by
  obtain ⟨rfl, f, hf⟩ | ⟨rfl, hf⟩ | ⟨rfl, x, r, hf⟩ := h.rs <;>
    obtain ⟨rfl, g, hg⟩ | ⟨rfl, hg⟩ | ⟨rfl, y, q, hg⟩ := h'.rs <;> simp_all

/-- `Paused` is never an end. -/
theorem State.not_endsBy_of_paused {s : State} (hp : s.rs = .paused) (e : RunEnd) : ¬ s.EndsBy e := fun h => by
  obtain ⟨-, f, hf⟩ | ⟨-, hf⟩ | ⟨-, x, r, hf⟩ := h.rs <;> simp_all

end Sys2Proof.Machine
end

