-- ==== Sys2Proof/Laws/Memory.lean ====
section
/-! SUPPORT. The laws of the memory: a read after a write, and the canonical form, which every operation keeps. -/

namespace Sys2Proof.Machine

variable {c : Config}

@[simp] theorem Memory.read_nil (a : Nat) : Memory.read c [] a = resetByte c a := rfl

@[simp] theorem Memory.read_cell (cell : Host.Cell) (m : Memory) (a : Nat) :
    Memory.read c (cell :: m) a = if cell.1 = a then cell.2 else Memory.read c m a := rfl

theorem Memory.wfFrom_cell (lo : Nat) (cell : Host.Cell) (m : Memory) :
    Memory.wfFrom c lo (cell :: m) = true ↔
      lo ≤ cell.1 ∧ cell.1 < 4096 ∧ cell.2 ≠ resetByte c cell.1 ∧ Memory.wfFrom c (cell.1 + 1) m = true := by
  simp [Memory.wfFrom, and_assoc]

theorem Memory.wfFrom_mono {lo lo' : Nat} {m : Memory} (h : Memory.wfFrom c lo m = true) (hle : lo' ≤ lo) :
    Memory.wfFrom c lo' m = true := by
  cases m with
  | nil => rfl
  | cons cell m => rw [wfFrom_cell] at h ⊢; exact ⟨by omega, h.2⟩

/-- Below its lower bound a canonical list lists nothing. -/
theorem Memory.read_below {lo a : Nat} {m : Memory} (h : Memory.wfFrom c lo m = true) (ha : a < lo) :
    Memory.read c m a = resetByte c a := by
  induction m generalizing lo with
  | nil => rfl
  | cons cell m ih =>
    rw [wfFrom_cell] at h
    rw [Memory.read_cell, if_neg (by omega)]
    exact ih h.2.2.2 (by omega)

theorem Memory.read_cons_other {a j : Nat} (b : Byte) (m : Memory) (h : j ≠ a) :
    Memory.read c (Memory.cons c a b m) j = Memory.read c m j := by
  unfold Memory.cons
  split
  · rfl
  · simp [Ne.symm h]

theorem Memory.read_cons_same {a : Nat} (b : Byte) {m : Memory} (h : Memory.wfFrom c (a + 1) m = true) :
    Memory.read c (Memory.cons c a b m) a = b := by
  unfold Memory.cons
  split
  case isTrue hb => rw [Memory.read_below h (by omega), hb]
  case isFalse => simp

theorem Memory.wfFrom_cons {lo a : Nat} (b : Byte) {m : Memory} (hlo : lo ≤ a) (ha : a < 4096)
    (h : Memory.wfFrom c (a + 1) m = true) : Memory.wfFrom c lo (Memory.cons c a b m) = true := by
  unfold Memory.cons
  split
  case isTrue => exact Memory.wfFrom_mono h (by omega)
  case isFalse hb => rw [Memory.wfFrom_cell]; exact ⟨hlo, ha, hb, h⟩

/-- A write leaves every other address alone, in any list. -/
theorem Memory.read_write_other {a j : Nat} (b : Byte) (m : Memory) (h : j ≠ a) :
    Memory.read c (Memory.write c m a b) j = Memory.read c m j := by
  induction m with
  | nil => exact Memory.read_cons_other b [] h
  | cons cell m ih =>
    unfold Memory.write
    split
    · exact Memory.read_cons_other b _ h
    · split
      case isTrue ha => rw [Memory.read_cons_other b _ h, Memory.read_cell, if_neg (by omega)]
      case isFalse => simp [ih]

/-- A read of the written address gives the byte written, in a canonical list. -/
theorem Memory.read_write_same {lo a : Nat} (b : Byte) {m : Memory} (h : Memory.wfFrom c lo m = true) :
    Memory.read c (Memory.write c m a b) a = b := by
  induction m generalizing lo with
  | nil => exact Memory.read_cons_same b rfl
  | cons cell m ih =>
    rw [Memory.wfFrom_cell] at h
    unfold Memory.write
    split
    case isTrue ha =>
      exact Memory.read_cons_same b (by rw [Memory.wfFrom_cell]; exact ⟨by omega, h.2⟩)
    case isFalse ha =>
      split
      case isTrue he => subst he; exact Memory.read_cons_same b h.2.2.2
      case isFalse he => rw [Memory.read_cell, if_neg he]; exact ih h.2.2.2

/-- A write below 4096 keeps the canonical form. -/
theorem Memory.write_wfFrom {lo a : Nat} (b : Byte) {m : Memory} (h : Memory.wfFrom c lo m = true) (hlo : lo ≤ a)
    (ha : a < 4096) : Memory.wfFrom c lo (Memory.write c m a b) = true := by
  induction m generalizing lo with
  | nil => exact Memory.wfFrom_cons b hlo ha rfl
  | cons cell m ih =>
    have hc := h
    rw [Memory.wfFrom_cell] at h
    unfold Memory.write
    split
    case isTrue hlt =>
      exact Memory.wfFrom_cons b hlo ha (by rw [Memory.wfFrom_cell]; exact ⟨by omega, h.2⟩)
    case isFalse hlt =>
      split
      case isTrue he => subst he; exact Memory.wfFrom_cons b hlo ha h.2.2.2
      case isFalse he =>
        rw [Memory.wfFrom_cell]
        exact ⟨h.1, h.2.1, h.2.2.1, ih h.2.2.2 (by omega)⟩

theorem Memory.write_wf {a : Nat} (b : Byte) {m : Memory} (h : Memory.wf c m = true) (ha : a < 4096) :
    Memory.wf c (Memory.write c m a b) = true :=
  Memory.write_wfFrom b h (Nat.zero_le a) ha

/-- Writing bytes that lie below 4096 keeps the canonical form. -/
theorem Memory.writeBytes_wf {a : Nat} (bs : List Byte) {m : Memory} (h : Memory.wf c m = true)
    (ha : a + bs.length ≤ 4096) : Memory.wf c (Memory.writeBytes c m a bs) = true := by
  induction bs generalizing a m with
  | nil => exact h
  | cons b rest ih =>
    simp only [List.length_cons] at ha
    exact ih (a := a + 1) (m := Memory.write c m a b) (Memory.write_wf b h (by omega)) (by omega)

/-- Writing bytes leaves every address outside them alone, in any list. -/
theorem Memory.read_writeBytes_outside {a j : Nat} (bs : List Byte) (m : Memory) (h : j < a ∨ a + bs.length ≤ j) :
    Memory.read c (Memory.writeBytes c m a bs) j = Memory.read c m j := by
  induction bs generalizing a m with
  | nil => rfl
  | cons b rest ih =>
    simp only [List.length_cons] at h
    unfold Memory.writeBytes
    rw [ih _ (by omega), Memory.read_write_other b m (by omega)]

/-- The k-th byte written is read back from the k-th address, in a canonical list. -/
theorem Memory.read_writeBytes_inside {a k : Nat} (bs : List Byte) {m : Memory} (h : Memory.wf c m = true)
    (ha : a + bs.length ≤ 4096) (hk : k < bs.length) :
    Memory.read c (Memory.writeBytes c m a bs) (a + k) = bs[k] := by
  induction bs generalizing a k m with
  | nil => simp at hk
  | cons b rest ih =>
    simp only [List.length_cons] at ha hk
    unfold Memory.writeBytes
    cases k with
    | zero =>
      rw [Memory.read_writeBytes_outside rest _ (by omega)]
      exact Memory.read_write_same b h
    | succ k =>
      have := ih (a := a + 1) (k := k) (m := Memory.write c m a b) (Memory.write_wf b h (by omega)) (by omega) (by omega)
      simpa [Nat.add_assoc, Nat.add_comm 1 k] using this

@[simp] theorem Memory.readBytes_length (m : Memory) (a n : Nat) : (Memory.readBytes c m a n).length = n := by
  induction n generalizing a with
  | zero => rfl
  | succ n ih => simp [Memory.readBytes, ih]

theorem Memory.readBytes_getElem (m : Memory) (a n k : Nat) (hk : k < (Memory.readBytes c m a n).length) :
    (Memory.readBytes c m a n)[k] = Memory.read c m (a + k) := by
  induction n generalizing a k with
  | zero => simp at hk
  | succ n ih =>
    cases k with
    | zero => rfl
    | succ k =>
      simp only [Memory.readBytes, List.getElem_cons_succ]
      rw [ih]
      congr 1
      omega

/-- The empty list, which reset holds, is canonical. -/
theorem Memory.wf_nil : Memory.wf c [] = true := rfl

/-- Outside font and image the reset contents are zero; inside the image they are the image's bytes (R38). -/
theorem resetByte_eq (a : Nat) (hf : ¬ (c.fontBase ≤ a ∧ a < c.fontBase + 80)) :
    resetByte c a = if c.loadBase.addr ≤ a then (c.image[a - c.loadBase.addr]?).getD 0 else 0 := by
  unfold resetByte
  rw [dif_neg hf]

end Sys2Proof.Machine
end

