-- ==== Sys2Proof/Laws/Ops.lean ====
section
/-! SUPPORT. One lemma per shared operation: everything it can do. -/

namespace Sys2Proof.Machine

/-- `raise` answers a next state in which only the run state has changed (R205). -/
theorem State.raise_next {s t : State} {f : CoreFault} : s.raise f = .next t ↔ t = s.setRs (.halted f) := by
  unfold State.raise
  constructor
  · intro h; cases h; rfl
  · rintro rfl; rfl

/-- A guarded access answers what its action answers, or raises `AddressOutOfRange` (R58). -/
theorem State.withRange_cases (s : State) (n : Nat) (act : Result) :
    (s.rangeOk n = true ∧ s.withRange n act = act) ∨
    (s.rangeOk n = false ∧ s.withRange n act = s.raise (.addressOutOfRange s.pc s.lowestOffending)) := by
  unfold State.withRange
  cases h : s.rangeOk n <;> simp

/-- The range check in numbers (R58). -/
theorem State.rangeOk_iff (s : State) (n : Nat) : s.rangeOk n = true ↔ n = 0 ∨ s.index.toNat + n ≤ 4096 := by
  simp [State.rangeOk]

/-- The offending address is `max(I, 0x1000)` (R58). -/
theorem State.lowestOffending_toNat (s : State) : s.lowestOffending.toNat = max s.index.toNat 0x1000 := by
  unfold State.lowestOffending
  split
  case isTrue h => rw [show (0x1000 : Word).toNat = 0x1000 from rfl]; omega
  case isFalse h => omega

/-- A taken skip adds 4, an untaken one 2 (R114). -/
theorem State.skipIf_pc (s : State) (c : Bool) : (s.skipIf c).pc = if c then s.pc + 4 else s.pc + 2 := by
  unfold State.skipIf
  cases c <;> rfl

/-- A push on a stack that is not full (R103). -/
theorem State.push_eq {s : State} (h : s.sp.val < 16) (w : Word) :
    s.push w = { s with stack := s.stack.set s.sp.val w, sp := ⟨s.sp.val + 1, by omega⟩ } := by
  unfold State.push
  rw [dif_pos h]

theorem State.stackFull_iff (s : State) : s.stackFull = true ↔ s.sp = 16 := by
  rw [State.stackFull, beq_iff_eq, Fin.ext_iff]
  exact Iff.rfl

theorem State.stackEmpty_iff (s : State) : s.stackEmpty = true ↔ s.sp = 0 := by
  rw [State.stackEmpty, beq_iff_eq, Fin.ext_iff]
  exact Iff.rfl

/-- The two writes of a flag-writing instruction, register by register (R132). -/
theorem State.readV_setResultFlag (s : State) (x j : Reg) (r : Byte) (f : Bool) :
    (s.setResultFlag x r f).readV j = if j = regVF then flagByte f else if j = x then r else s.readV j := by
  rw [State.setResultFlag_eq, State.setFlag_eq, State.readV_setV, State.readV_setV]

/-- A fetch gives the word at `PC`, or the fault of a byte above 0xFFF (R54). -/
theorem State.fetch_cases (s : State) :
    (s.pc.toNat ≤ 0xFFE ∧ s.fetch = .ok (s.wordAt s.pc.toNat)) ∨
    (0xFFE < s.pc.toNat ∧
      s.fetch = .error (.addressOutOfRange s.pc (if s.pc.toNat ≤ 0xFFF then s.pc + 1 else s.pc))) := by
  unfold State.fetch
  by_cases h : s.pc.toNat ≤ 0xFFE
  · left; simp [h]
  · right; exact ⟨by omega, by rw [if_neg h]⟩

/-- Storing bytes keeps the canonical form of the memory (log 6). -/
theorem State.storeBytes_wf {s : State} (a : Nat) (bs : List Byte) (h : Memory.wf s.config s.mem = true)
    (ha : a + bs.length ≤ 4096) : Memory.wf (s.storeBytes a bs).config (s.storeBytes a bs).mem = true :=
  Memory.writeBytes_wf bs h ha

/-- A byte outside the stored ones reads as before. -/
theorem State.byteAt_storeBytes_outside (s : State) (a : Nat) (bs : List Byte) {j : Nat}
    (h : j < a ∨ a + bs.length ≤ j) : (s.storeBytes a bs).byteAt j = s.byteAt j :=
  Memory.read_writeBytes_outside bs s.mem h

/-- A stored byte is read back. -/
theorem State.byteAt_storeBytes_inside {s : State} (a : Nat) (bs : List Byte) {k : Nat}
    (h : Memory.wf s.config s.mem = true) (ha : a + bs.length ≤ 4096) (hk : k < bs.length) :
    (s.storeBytes a bs).byteAt (a + k) = bs[k] :=
  Memory.read_writeBytes_inside bs h ha hk

/-- Two states with the same configuration and memory read the same bytes. -/
theorem State.byteAt_congr {s t : State} (hc : t.config = s.config) (hm : t.mem = s.mem) (a : Nat) :
    t.byteAt a = s.byteAt a := by
  unfold State.byteAt; rw [hc, hm]

/-- The CPU's turn in an enabled run state (R200). -/
theorem State.offerCpu_enabled {s : State} (h : s.rs.runsCpu = true) : s.offerCpu = s.cpuStep := by
  simp [State.offerCpu, h]

/-- The CPU's turn in a run state that does not enable it (R226). -/
theorem State.offerCpu_disabled {s : State} (h : s.rs.runsCpu = false) : s.offerCpu = .next s := by
  simp [State.offerCpu, h]

/-- A step performs the next step in the total order, that step taken off the schedule (R231). -/
theorem step_eq (s : State) : step s = s.afterHead.perform s.schedule.next := rfl

end Sys2Proof.Machine
end

