-- ==== Sys2Proof/Laws/PerInstr.lean ====
section
/-! SUPPORT. The family `Row`: the word of every instruction lies in the instruction's own row of the opcode map
(30_encoding.md R75), one lemma per constructor. -/

namespace Sys2Proof.Laws

/-- The fixed bits of the word of `i` are those of its row. -/
def Row.Statement (i : Instr) : Prop :=
  ∃ row, opcodeRows[rowOf i]? = some row ∧ inRow (encode i) row = true

theorem append_and_append {w v : Nat} {a m a' : BitVec w} {b k b' : BitVec v} (ha : a &&& m = a') (hb : b &&& k = b') :
    (a ++ b) &&& (m ++ k) = a' ++ b' := by
  rw [BitVec.and_append, ha, hb]

theorem encodeNNN_fixed (op : Nibble) (nnn : Addr) : encodeNNN op nnn &&& 0xF000 = op ++ (0 : Addr) :=
  append_and_append (m := 0xF) (k := 0) BitVec.and_allOnes BitVec.and_zero

theorem encodeXNN_op_fixed (op : Nibble) (x : Reg) (nn : Byte) :
    encodeXNN op x nn &&& 0xF000 = op ++ (0 : Nibble) ++ (0 : Byte) :=
  append_and_append (m := (0xF : Nibble) ++ (0 : Nibble)) (k := 0)
    (append_and_append (m := 0xF) (k := 0) BitVec.and_allOnes BitVec.and_zero) BitVec.and_zero

theorem encodeXNN_code_fixed (op : Nibble) (x : Reg) (nn : Byte) :
    encodeXNN op x nn &&& 0xF0FF = op ++ (0 : Nibble) ++ nn :=
  append_and_append (m := (0xF : Nibble) ++ (0 : Nibble)) (k := 0xFF)
    (append_and_append (m := 0xF) (k := 0) BitVec.and_allOnes BitVec.and_zero) BitVec.and_allOnes

theorem encodeXYN_code_fixed (op : Nibble) (x y : Reg) (n : Nibble) :
    encodeXYN op x y n &&& 0xF00F = op ++ (0 : Nibble) ++ (0 : Nibble) ++ n :=
  append_and_append (m := (0xF : Nibble) ++ (0 : Nibble) ++ (0 : Nibble)) (k := 0xF)
    (append_and_append (m := (0xF : Nibble) ++ (0 : Nibble)) (k := 0)
      (append_and_append (m := 0xF) (k := 0) BitVec.and_allOnes BitVec.and_zero) BitVec.and_zero) BitVec.and_allOnes

theorem encodeXYN_op_fixed (op : Nibble) (x y : Reg) (n : Nibble) :
    encodeXYN op x y n &&& 0xF000 = op ++ (0 : Nibble) ++ (0 : Nibble) ++ (0 : Nibble) :=
  append_and_append (m := (0xF : Nibble) ++ (0 : Nibble) ++ (0 : Nibble)) (k := 0)
    (append_and_append (m := (0xF : Nibble) ++ (0 : Nibble)) (k := 0)
      (append_and_append (m := 0xF) (k := 0) BitVec.and_allOnes BitVec.and_zero) BitVec.and_zero) BitVec.and_zero

theorem Row.cls : Row.Statement (.cls) := ⟨_, rfl, rfl⟩

theorem Row.ret : Row.Statement (.ret) := ⟨_, rfl, rfl⟩

theorem Row.jp (nnn : Addr) : Row.Statement (.jp nnn) := ⟨_, rfl, by simp only [inRow, encode]; rw [encodeNNN_fixed]; rfl⟩

theorem Row.call (nnn : Addr) : Row.Statement (.call nnn) := ⟨_, rfl, by simp only [inRow, encode]; rw [encodeNNN_fixed]; rfl⟩

theorem Row.seImm (x : Reg) (nn : Byte) : Row.Statement (.seImm x nn) := ⟨_, rfl, by simp only [inRow, encode]; rw [encodeXNN_op_fixed]; rfl⟩

theorem Row.sneImm (x : Reg) (nn : Byte) : Row.Statement (.sneImm x nn) := ⟨_, rfl, by simp only [inRow, encode]; rw [encodeXNN_op_fixed]; rfl⟩

theorem Row.seReg (x y : Reg) : Row.Statement (.seReg x y) := ⟨_, rfl, by simp only [inRow, encode]; rw [encodeXYN_code_fixed]; rfl⟩

theorem Row.ldImm (x : Reg) (nn : Byte) : Row.Statement (.ldImm x nn) := ⟨_, rfl, by simp only [inRow, encode]; rw [encodeXNN_op_fixed]; rfl⟩

theorem Row.addImm (x : Reg) (nn : Byte) : Row.Statement (.addImm x nn) := ⟨_, rfl, by simp only [inRow, encode]; rw [encodeXNN_op_fixed]; rfl⟩

theorem Row.ldReg (x y : Reg) : Row.Statement (.ldReg x y) := ⟨_, rfl, by simp only [inRow, encode]; rw [encodeXYN_code_fixed]; rfl⟩

theorem Row.orReg (x y : Reg) : Row.Statement (.orReg x y) := ⟨_, rfl, by simp only [inRow, encode]; rw [encodeXYN_code_fixed]; rfl⟩

theorem Row.andReg (x y : Reg) : Row.Statement (.andReg x y) := ⟨_, rfl, by simp only [inRow, encode]; rw [encodeXYN_code_fixed]; rfl⟩

theorem Row.xorReg (x y : Reg) : Row.Statement (.xorReg x y) := ⟨_, rfl, by simp only [inRow, encode]; rw [encodeXYN_code_fixed]; rfl⟩

theorem Row.addReg (x y : Reg) : Row.Statement (.addReg x y) := ⟨_, rfl, by simp only [inRow, encode]; rw [encodeXYN_code_fixed]; rfl⟩

theorem Row.subReg (x y : Reg) : Row.Statement (.subReg x y) := ⟨_, rfl, by simp only [inRow, encode]; rw [encodeXYN_code_fixed]; rfl⟩

theorem Row.shr (x y : Reg) : Row.Statement (.shr x y) := ⟨_, rfl, by simp only [inRow, encode]; rw [encodeXYN_code_fixed]; rfl⟩

theorem Row.subnReg (x y : Reg) : Row.Statement (.subnReg x y) := ⟨_, rfl, by simp only [inRow, encode]; rw [encodeXYN_code_fixed]; rfl⟩

theorem Row.shl (x y : Reg) : Row.Statement (.shl x y) := ⟨_, rfl, by simp only [inRow, encode]; rw [encodeXYN_code_fixed]; rfl⟩

theorem Row.sneReg (x y : Reg) : Row.Statement (.sneReg x y) := ⟨_, rfl, by simp only [inRow, encode]; rw [encodeXYN_code_fixed]; rfl⟩

theorem Row.ldI (nnn : Addr) : Row.Statement (.ldI nnn) := ⟨_, rfl, by simp only [inRow, encode]; rw [encodeNNN_fixed]; rfl⟩

theorem Row.jpOffset (nnn : Addr) : Row.Statement (.jpOffset nnn) := ⟨_, rfl, by simp only [inRow, encode]; rw [encodeNNN_fixed]; rfl⟩

theorem Row.rnd (x : Reg) (nn : Byte) : Row.Statement (.rnd x nn) := ⟨_, rfl, by simp only [inRow, encode]; rw [encodeXNN_op_fixed]; rfl⟩

theorem Row.drw (x y : Reg) (n : Nibble) : Row.Statement (.drw x y n) := ⟨_, rfl, by simp only [inRow, encode]; rw [encodeXYN_op_fixed]; rfl⟩

theorem Row.skp (x : Reg) : Row.Statement (.skp x) := ⟨_, rfl, by simp only [inRow, encode]; rw [encodeXNN_code_fixed]; rfl⟩

theorem Row.sknp (x : Reg) : Row.Statement (.sknp x) := ⟨_, rfl, by simp only [inRow, encode]; rw [encodeXNN_code_fixed]; rfl⟩

theorem Row.ldVxDT (x : Reg) : Row.Statement (.ldVxDT x) := ⟨_, rfl, by simp only [inRow, encode]; rw [encodeXNN_code_fixed]; rfl⟩

theorem Row.ldVxK (x : Reg) : Row.Statement (.ldVxK x) := ⟨_, rfl, by simp only [inRow, encode]; rw [encodeXNN_code_fixed]; rfl⟩

theorem Row.ldDTVx (x : Reg) : Row.Statement (.ldDTVx x) := ⟨_, rfl, by simp only [inRow, encode]; rw [encodeXNN_code_fixed]; rfl⟩

theorem Row.ldSTVx (x : Reg) : Row.Statement (.ldSTVx x) := ⟨_, rfl, by simp only [inRow, encode]; rw [encodeXNN_code_fixed]; rfl⟩

theorem Row.addI (x : Reg) : Row.Statement (.addI x) := ⟨_, rfl, by simp only [inRow, encode]; rw [encodeXNN_code_fixed]; rfl⟩

theorem Row.ldF (x : Reg) : Row.Statement (.ldF x) := ⟨_, rfl, by simp only [inRow, encode]; rw [encodeXNN_code_fixed]; rfl⟩

theorem Row.ldB (x : Reg) : Row.Statement (.ldB x) := ⟨_, rfl, by simp only [inRow, encode]; rw [encodeXNN_code_fixed]; rfl⟩

theorem Row.stRegs (x : Reg) : Row.Statement (.stRegs x) := ⟨_, rfl, by simp only [inRow, encode]; rw [encodeXNN_code_fixed]; rfl⟩

theorem Row.ldRegs (x : Reg) : Row.Statement (.ldRegs x) := ⟨_, rfl, by simp only [inRow, encode]; rw [encodeXNN_code_fixed]; rfl⟩

end Sys2Proof.Laws
end

