-- ==== Sys2Proof/Laws/Schedule.lean ====
section
/-! SUPPORT. The coming steps of the agents (60_exceptions.md R231, R233): the small lemmas of `Schedule`, that a schedule of the
CPU alone goes on so, and that a fair schedule exists. -/

namespace Sys2Proof.Machine

@[simp] theorem Schedule.next_cons (e : Event) (c : Schedule) : (Schedule.cons e c).next = e := rfl

@[simp] theorem Schedule.rest_cons (e : Event) (c : Schedule) : (Schedule.cons e c).rest = c := rfl

@[simp] theorem Schedule.next_repeating (e : Event) (es : List Event) : (Schedule.repeating e es).next = e := rfl

@[simp] theorem Schedule.next_free (n : Nat) : (Schedule.free n).next = Config.comingEvent n := rfl

@[simp] theorem Schedule.rest_free (n : Nat) : (Schedule.free n).rest = .free (n + 1) := rfl

@[simp] theorem Schedule.ahead_zero (c : Schedule) : c.ahead 0 = c := rfl

@[simp] theorem Schedule.ahead_succ (c : Schedule) (n : Nat) : c.ahead (n + 1) = c.rest.ahead n := rfl

/-- The free schedule, read from any place, is the free value from there on: no endless interleaving is shut out. -/
theorem Schedule.next_ahead_free (n k : Nat) : ((Schedule.free n).ahead k).next = Config.comingEvent (n + k) := by
  induction k generalizing n with
  | zero => rfl
  | succ k ih => rw [Schedule.ahead_succ, Schedule.rest_free, ih]; congr 1; omega

/-- One step repeated for ever. -/
theorem Schedule.ahead_repeating_nil (e : Event) (n : Nat) :
    (Schedule.repeating e []).ahead n = .repeating e [] := by
  induction n with
  | zero => rfl
  | succ n ih => exact ih

/-- Two steps taking turns for ever. -/
theorem Schedule.ahead_repeating_pair (e e' : Event) (n : Nat) :
    (Schedule.repeating e [e']).ahead (2 * n) = .repeating e [e'] ∧
    (Schedule.repeating e [e']).ahead (2 * n + 1) = .repeating e' [e] := by
  induction n with
  | zero => exact ⟨rfl, rfl⟩
  | succ n ih => exact ⟨ih.1, ih.2⟩

/-- A fair schedule exists: CPU steps and ticks taking turns. -/
theorem Schedule.fair_cpu_tick : (Schedule.repeating .cpu [.tick]).Fair := fun n =>
  ⟨⟨2 * n, by omega, by rw [(Schedule.ahead_repeating_pair _ _ n).1]; rfl⟩,
    ⟨2 * n + 1, by omega, by rw [(Schedule.ahead_repeating_pair _ _ n).2]; rfl⟩⟩

end Sys2Proof.Machine
end

