-- ==== Sys2Proof/Tests/Slice0.lean ====
section
/-! SUPPORT. The model's own tests. Expected values come from 95_test_vectors.md (its section is named before each group); none
is the model's own answer. The last part has, for every obligation with hypotheses, states that meet them. -/

set_option maxRecDepth 20000

namespace Sys2Proof.Tests

open Sys2Proof Sys2Proof.Machine

/-- The state a step gives; the state itself where it gives none. -/
def after (s : State) : State :=
  match step s with
  | .next t => t
  | .fault _ => s
  | .refused _ => s

/-- One CPU step on the word `w` placed at `PC`. -/
def run (w : Nat) (s : State) : State := after (s.withFetchWord 16 w)

/-- The state with the bytes at `a`. -/
def withBytes (s : State) (a : Nat) (bs : List Byte) : State := s.storeBytes a bs

/-- The reset state under another configuration. -/
def under (c : Config) : State := State.initial c

/-- The given steps, and then the CPU alone. -/
def coming (es : List Event) : Schedule := .after es (.repeating .cpu [])

/-- The faults of the tests, at 0x200 unless they say otherwise. -/
def outOfRange : RunState := .halted (.addressOutOfRange 0x200 0x1000)

/-! ### WellFormed: an ill-formed configuration for each check (70_reset_and_hazards.md R255, 00_scope.md R9) -/

theorem test_wf_conventional : conventionalConfig.wf = true := by decide

theorem test_wf_odd_image : { conventionalConfig with image := [0x12] }.imageEven = false := by decide

theorem test_wf_odd_image_refused : { conventionalConfig with image := [0x12] }.wf = false := by decide

theorem test_wf_image_too_long : { conventionalConfig with image := List.replicate 3586 0 }.imageFits = false := by
  simp [Config.imageFits, conventionalConfig, LoadBase.addr]

theorem test_wf_image_fills_memory : { conventionalConfig with image := List.replicate 3584 0 }.imageFits = true := by
  simp [Config.imageFits, conventionalConfig, LoadBase.addr]

theorem test_wf_image_too_long_at_eti :
    { conventionalConfig with loadBase := .eti, image := List.replicate 2562 0 }.imageFits = false := by
  simp [Config.imageFits, LoadBase.addr]

theorem test_wf_font_too_high : { conventionalConfig with fontBase := 0x1B1 }.fontFits = false := by decide

theorem test_wf_font_at_its_highest : { conventionalConfig with fontBase := 0x1B0 }.wf = true := by decide

theorem test_wf_rate_zero : { conventionalConfig with cpuRate := 0 }.ratePositive = false := by decide

/-! ### Decoder vectors (section 4): a word for every constructor, and the illegal words -/

theorem test_decode_family0 : decode 0x00E0 = .ok .cls ∧ decode 0x00EE = .ok .ret := by decide

theorem test_decode_jumps :
    decode 0x1ABC = .ok (.jp 0xABC) ∧ decode 0x2300 = .ok (.call 0x300) ∧ decode 0xB123 = .ok (.jpOffset 0x123) := by decide

theorem test_decode_skips :
    decode 0x3A7F = .ok (.seImm 10 0x7F) ∧ decode 0x4A7F = .ok (.sneImm 10 0x7F) ∧ decode 0x5AB0 = .ok (.seReg 10 11) ∧
    decode 0x9AB0 = .ok (.sneReg 10 11) := by decide

theorem test_decode_immediates : decode 0x6A02 = .ok (.ldImm 10 0x02) ∧ decode 0x7A02 = .ok (.addImm 10 0x02) := by decide

theorem test_decode_family8 :
    decode 0x8AB0 = .ok (.ldReg 10 11) ∧ decode 0x8AB1 = .ok (.orReg 10 11) ∧ decode 0x8AB2 = .ok (.andReg 10 11) ∧
    decode 0x8AB3 = .ok (.xorReg 10 11) ∧ decode 0x8AB4 = .ok (.addReg 10 11) ∧ decode 0x8AB5 = .ok (.subReg 10 11) ∧
    decode 0x8AB6 = .ok (.shr 10 11) ∧ decode 0x8AB7 = .ok (.subnReg 10 11) ∧ decode 0x8ABE = .ok (.shl 10 11) := by decide

theorem test_decode_index_random_draw :
    decode 0xA123 = .ok (.ldI 0x123) ∧ decode 0xC1FF = .ok (.rnd 1 0xFF) ∧ decode 0xD125 = .ok (.drw 1 2 5) ∧
    decode 0xD120 = .ok (.drw 1 2 0) := by decide

theorem test_decode_familyE : decode 0xE19E = .ok (.skp 1) ∧ decode 0xE1A1 = .ok (.sknp 1) := by decide

theorem test_decode_familyF :
    decode 0xF107 = .ok (.ldVxDT 1) ∧ decode 0xF10A = .ok (.ldVxK 1) ∧ decode 0xF115 = .ok (.ldDTVx 1) ∧
    decode 0xF118 = .ok (.ldSTVx 1) ∧ decode 0xF11E = .ok (.addI 1) ∧ decode 0xF129 = .ok (.ldF 1) ∧
    decode 0xF133 = .ok (.ldB 1) ∧ decode 0xF155 = .ok (.stRegs 1) ∧ decode 0xF165 = .ok (.ldRegs 1) := by decide

theorem test_illegal_family0 :
    [0x00E1, 0x00EF, 0x0000, 0x0123, 0x00FE, 0x00C4].map decode = List.replicate 6 (.error .family0) := by decide

theorem test_illegal_families_5_8_9 :
    [0x5AB1, 0x5ABF].map decode = List.replicate 2 (.error .family5) ∧
    [0x8AB8, 0x8AB9, 0x8ABA, 0x8ABB, 0x8ABC, 0x8ABD, 0x8ABF].map decode = List.replicate 7 (.error .family8) ∧
    decode 0x9AB1 = .error .family9 := by decide

theorem test_illegal_families_E_F :
    [0xE19F, 0xE100, 0xE1A0].map decode = List.replicate 3 (.error .familyE) ∧
    [0xF100, 0xF130, 0xF175, 0xF185, 0xF1FF, 0xF102].map decode = List.replicate 6 (.error .familyF) := by decide

theorem test_decode_bytes : decodeBytes [0x6A, 0x02, 0x60, 0x0C] = .ok (.ldImm 10 0x02, [0x60, 0x0C]) := by decide

theorem test_decode_truncated : decodeBytes [0x6A] = .error .truncated := by decide

theorem test_table_word : decodeTableWord 16 0xD125 = some (.drw 1 2 5) ∧ decodeTableWord 16 0x0000 = none := by decide

theorem test_encode_words : encode (.call 0x300) = 0x2300 ∧ encode (.drw 1 2 5) = 0xD125 ∧ encode (.ldB 3) = 0xF333 := by
  decide

/-! ### Control flow (section 2.1) -/

theorem test_cls_clears :
    (run 0x00E0 ((State.reset.setFb (Framebuffer.flip Framebuffer.blank (31, 63))).setV 15 7)).fb = Framebuffer.blank ∧
    (run 0x00E0 (State.reset.setV 15 7)).readV 15 = 7 := by decide

theorem test_ret_pops :
    let t := run 0x00EE { State.reset with pc := 0x300, sp := 1, stack := State.reset.stack.set 0 0x0202 }
    t.sp = 0 ∧ t.pc = 0x202 ∧ t.stack[0] = 0x202 := by decide

theorem test_ret_underflow :
    (run 0x00EE State.reset).rs = .halted (.stackUnderflow 0x200) ∧ (run 0x00EE State.reset).pc = 0x200 := by decide

theorem test_jp :
    (run 0x1FFF State.reset).pc = 0x0FFF ∧ (after (run 0x1FFF State.reset)).rs = .halted (.addressOutOfRange 0x0FFF 0x1000) := by decide

theorem test_call_pushes :
    let t := run 0x2ABC { State.reset with sp := 15 }
    t.stack[15] = 0x0202 ∧ t.sp = 16 ∧ t.pc = 0x0ABC := by decide

theorem test_call_overflow :
    (run 0x2ABC { State.reset with sp := 16 }).rs = .halted (.stackOverflow 0x200) ∧
    (run 0x2ABC { State.reset with sp := 16 }).stack = State.reset.stack := by decide

theorem test_jpOffset_v0 :
    (run 0xB2F0 ((State.reset.setV 0 0x09).setV 2 0x04)).pc = 0x02F9 ∧ (run 0xBFFF (State.reset.setV 0 0xFF)).pc = 0x10FE := by decide

theorem test_jpOffset_vx :
    let s := under { conventionalConfig with jumpReg := .vx }
    (run 0xB2F0 ((s.setV 0 0x09).setV 2 0x04)).pc = 0x02F4 ∧ (run 0xBFFF (s.setV 15 0x01)).pc = 0x1000 := by decide

/-! ### Conditional skips (section 2.2) -/

theorem test_seImm :
    (run 0x332A (State.reset.setV 3 0x2A)).pc = 0x204 ∧ (run 0x332B (State.reset.setV 3 0x2A)).pc = 0x202 := by decide

theorem test_sneImm :
    (run 0x432A (State.reset.setV 3 0x2A)).pc = 0x202 ∧ (run 0x4F00 State.reset).pc = 0x202 := by decide

theorem test_seReg :
    (run 0x5120 ((State.reset.setV 1 7).setV 2 7)).pc = 0x204 ∧ (run 0x5120 ((State.reset.setV 1 7).setV 2 8)).pc = 0x202 := by decide

theorem test_sneReg :
    (run 0x9120 ((State.reset.setV 1 7).setV 2 8)).pc = 0x204 ∧ (run 0x9330 State.reset).pc = 0x202 := by decide

theorem test_skip_at_the_top :
    (run 0x3000 (State.reset.setPc 0xFFE)).pc = 0x1002 ∧
    (after (run 0x3000 (State.reset.setPc 0xFFE))).rs = .halted (.addressOutOfRange 0x1002 0x1002) := by decide

/-! ### Arithmetic (section 2.3) -/

theorem test_ldImm :
    let t := run 0x6A02 (State.reset)
    t.readV 10 = 0x02 ∧ t.pc = 0x202 := by decide

theorem test_ldImm_vf :
    let t := run 0x6FFF (State.reset)
    t.readV 15 = 0xFF ∧ t.pc = 0x202 := by decide

theorem test_addImm_wraps :
    let t := run 0x7120 (((State.reset).setV 1 0xF0).setV 15 0x05)
    t.readV 1 = 0x10 ∧ t.readV 15 = 0x05 ∧ t.pc = 0x202 := by decide

theorem test_addImm_vf :
    let t := run 0x7FFF ((State.reset).setV 15 0x01)
    t.readV 15 = 0x00 ∧ t.pc = 0x202 := by decide

theorem test_ldReg :
    let t := run 0x8120 ((State.reset).setV 2 0x55)
    t.readV 1 = 0x55 ∧ t.pc = 0x202 := by decide

theorem test_orReg :
    let t := run 0x8121 ((((State.reset).setV 1 0xF0).setV 2 0x0F).setV 15 0x07)
    t.readV 1 = 0xFF ∧ t.readV 15 = 0x07 ∧ t.pc = 0x202 := by decide

theorem test_andReg :
    let t := run 0x8122 (((State.reset).setV 1 0xF0).setV 2 0x3C)
    t.readV 1 = 0x30 ∧ t.pc = 0x202 := by decide

theorem test_xorReg :
    let t := run 0x8123 (((State.reset).setV 1 0xF0).setV 2 0x3C)
    t.readV 1 = 0xCC ∧ t.pc = 0x202 := by decide

theorem test_addReg_carry :
    let t := run 0x8124 (((State.reset).setV 1 0xC8).setV 2 0x64)
    t.readV 1 = 0x2C ∧ t.readV 15 = 0x01 ∧ t.pc = 0x202 := by decide

theorem test_addReg_vf_operand :
    let t := run 0x81F4 (((State.reset).setV 1 0xFF).setV 15 0x01)
    t.readV 1 = 0x00 ∧ t.readV 15 = 0x01 ∧ t.pc = 0x202 := by decide

theorem test_subReg_borrow :
    let t := run 0x8125 (((State.reset).setV 1 0x10).setV 2 0x20)
    t.readV 1 = 0xF0 ∧ t.readV 15 = 0x00 ∧ t.pc = 0x202 := by decide

theorem test_subReg_vf_destination :
    let t := run 0x8F25 (((State.reset).setV 15 0x05).setV 2 0x03)
    t.readV 15 = 0x01 ∧ t.pc = 0x202 := by decide

theorem test_subnReg :
    let t := run 0x8127 (((State.reset).setV 1 0x10).setV 2 0x20)
    t.readV 1 = 0x10 ∧ t.readV 15 = 0x01 ∧ t.pc = 0x202 := by decide

theorem test_subnReg_borrow :
    let t := run 0x8127 (((State.reset).setV 1 0x01).setV 2 0x00)
    t.readV 1 = 0xFF ∧ t.readV 15 = 0x00 ∧ t.pc = 0x202 := by decide

theorem test_shr_vx :
    let t := run 0x8126 (((State.reset).setV 1 0x01).setV 2 0xFE)
    t.readV 1 = 0x00 ∧ t.readV 15 = 0x01 ∧ t.readV 2 = 0xFE ∧ t.pc = 0x202 := by decide

theorem test_shr_vy :
    let t := run 0x8126 (((under { conventionalConfig with shiftSrc := .vy }).setV 1 0x01).setV 2 0xFE)
    t.readV 1 = 0x7F ∧ t.readV 15 = 0x00 ∧ t.readV 2 = 0xFE ∧ t.pc = 0x202 := by decide

theorem test_shl_vx :
    let t := run 0x812E (((State.reset).setV 1 0x81).setV 2 0x01)
    t.readV 1 = 0x02 ∧ t.readV 15 = 0x01 ∧ t.pc = 0x202 := by decide

theorem test_shl_vy :
    let t := run 0x812E (((under { conventionalConfig with shiftSrc := .vy }).setV 1 0x80).setV 2 0x7F)
    t.readV 1 = 0xFE ∧ t.readV 15 = 0x00 ∧ t.pc = 0x202 := by decide

/-! ### Memory and index (section 2.4) -/

theorem test_ldI :
    (run 0xAFFF State.reset).index = 0x0FFF := by decide

theorem test_addI_wraps :
    let t := run 0xF01E (((State.reset.setIndex 0xFFFF).setV 0 1).setV 15 5)
    t.index = 0x0000 ∧ t.readV 15 = 5 := by decide

theorem test_stRegs :
    let t := run 0xF255 ((((under { conventionalConfig with loadStoreInc := true }).setIndex 0x300).setV 0 1).setV 2 3)
    t.bytesAt 0x300 4 = [1, 0, 3, 0] ∧ t.index = 0x303 ∧ (run 0xF255 (State.reset.setIndex 0x300)).index = 0x300 := by decide

theorem test_stRegs_out_of_range :
    let t := run 0xFF55 ((State.reset.setIndex 0xFF1).setV 0 0x10)
    t.rs = outOfRange ∧ t.byteAt 0xFF1 = 0 ∧ t.pc = 0x200 := by decide

theorem test_ldRegs :
    let t := run 0xF165 ((State.reset.setIndex 0x200).setV 2 0x77)
    t.readV 0 = 0xF1 ∧ t.readV 1 = 0x65 ∧ t.readV 2 = 0x77 ∧ t.index = 0x200 := by decide

theorem test_ldRegs_out_of_range :
    let t := run 0xF165 ((State.reset.setIndex 0xFFF).setV 0 0x77)
    t.rs = outOfRange ∧ t.readV 0 = 0x77 := by decide

theorem test_ldB :
    (run 0xF333 ((State.reset.setIndex 0x300).setV 3 0x9C)).bytesAt 0x300 3 = [1, 5, 6] := by decide

theorem test_ldB_out_of_range :
    let t := run 0xF033 ((State.reset.setIndex 0xFFE).setV 0 0x7B)
    t.rs = outOfRange ∧ t.byteAt 0xFFE = 0 := by decide

theorem test_ldF :
    (run 0xF029 (State.reset.setV 0 0x0F)).index = 0x009B ∧ (run 0xF029 (State.reset.setV 0 0x1A)).index = 0x0082 := by decide

/-! ### Random (section 2.5): the draw stays free -/

theorem test_rnd_masks :
    (run 0xC100 (State.reset.setV 1 0x0F)).readV 1 = Config.randomByte 0 &&& 0x0F := rfl

theorem test_rnd_draws_anew :
    (run 0xC1FF (run 0xC1FF State.reset)).draws = 2 := rfl

/-! ### Draw (section 2.6) -/

theorem test_drw_wraps :
    let t := run 0xD011 (((withBytes State.reset 0x300 [0xFF]).setIndex 0x300).setV 0 60)
    t.fb[0].toList = List.replicate 4 true ++ List.replicate 56 false ++ List.replicate 4 true ∧ t.readV 15 = 0 ∧ t.pc = 0x202 := by decide

theorem test_drw_clips_and_collides :
    let s := ((withBytes (under { conventionalConfig with drawEdge := .clip }) 0x300 [0x80, 0x80]).setIndex 0x300).setV 1 31
    let t := run 0xD012 s
    t.fb = Framebuffer.flip Framebuffer.blank (31, 0) ∧ t.readV 15 = 0 ∧ (run 0xD012 t).fb = Framebuffer.blank ∧
    (run 0xD012 t).readV 15 = 1 := by decide

theorem test_drw_no_rows :
    let t := run 0xD010 ((State.reset.setIndex 0xFFFF).setV 15 1)
    t.fb = Framebuffer.blank ∧ t.readV 15 = 0 ∧ t.pc = 0x202 := by decide

theorem test_drw_out_of_range :
    let t := run 0xD01F ((State.reset.setIndex 0xFF2).setV 15 9)
    t.rs = outOfRange ∧ t.readV 15 = 9 := by decide

/-! ### Keypad (section 2.7) -/

theorem test_skp :
    (run 0xE29E ((State.reset.setV 2 5).setKey 5 true)).pc = 0x204 ∧ (run 0xE09E (State.reset.setV 0 5)).pc = 0x202 := by decide

theorem test_sknp :
    (run 0xE0A1 ((State.reset.setV 0 0x15).setKey 5 true)).pc = 0x202 ∧ (run 0xE0A1 (State.reset.setV 0 5)).pc = 0x204 := by decide

theorem test_ldVxK_waits :
    let t := run 0xFF0A (State.reset.setKey 3 true)
    t.rs = .awaitingKey 15 .running ∧ t.pc = 0x200 := by decide

theorem test_ldVxK_completes :
    let t := after ((run 0xFF0A State.reset).setSchedule (coming [.keyDown 15]))
    t.readV 15 = 0x0F ∧ t.keys[15] = true ∧ t.pc = 0x202 ∧ t.rs = .running := by decide

theorem test_stepped_wait :
    let t := run 0xF10A (State.reset.setRs .steppingOne)
    t.rs = .awaitingKey 1 .paused ∧ (after (t.setSchedule (coming [.keyDown 9]))).rs = .paused := by decide

theorem test_pause_drops_the_wait :
    let t := after ((run 0xF10A State.reset).setSchedule (coming [.command .pause]))
    t.rs = .paused ∧ t.pc = 0x200 ∧ (after (t.setSchedule (coming [.keyDown 4]))).readV 1 = 0 ∧ (after (t.setSchedule (coming [.keyDown 4]))).rs = .paused := by decide

/-! ### Timers (section 2.8) -/

theorem test_ldVxDT :
    (run 0xF507 (State.reset.setDt 0x3C)).readV 5 = 0x3C := by decide

theorem test_ldDTVx :
    (run 0xF515 (State.reset.setV 5 0xC8)).dt = 0xC8 := by decide

theorem test_ldSTVx :
    (run 0xF518 (State.reset.setV 5 2)).st = 2 ∧ (run 0xF518 (State.reset.setV 5 2)).soundActive = true := by decide

theorem test_tick :
    let t := after { State.reset with dt := 1, st := 2, schedule := coming [.tick] }
    t.dt = 0 ∧ t.st = 1 ∧ (after (t.setSchedule (coming [.tick]))).dt = 0 := by decide

theorem test_tick_while_paused :
    (after { State.reset with dt := 5, rs := .paused, schedule := coming [.tick] }).dt = 4 ∧
    (after { under { conventionalConfig with timersWhilePaused := false } with dt := 5, rs := .paused, schedule := coming [.tick] }).dt = 5 := by decide

/-! ### Fetch, faults, run control (section 2.9), reset and load -/

theorem test_fetch_above :
    (after (State.reset.setPc 0xFFF)).rs = .halted (.addressOutOfRange 0xFFF 0x1000) ∧
    (after (State.reset.setPc 0x1000)).rs = .halted (.addressOutOfRange 0x1000 0x1000) := by decide

theorem test_fetch_at_the_top :
    (run 0x6007 (State.reset.setPc 0xFFE)).readV 0 = 7 ∧ (run 0x6007 (State.reset.setPc 0xFFE)).pc = 0x1000 := by decide

theorem test_illegal_word :
    (run 0xF075 State.reset).rs = .halted (.illegalInstruction 0x200 0xF075) ∧ (run 0xF075 State.reset).pc = 0x200 := by decide

theorem test_empty_image :
    (after State.reset).rs = .halted (.illegalInstruction 0x200 0x0000) := by decide

theorem test_odd_fetch :
    (after ((under { conventionalConfig with image := [0x12, 0x03, 0x00, 0x6A, 0x42, 0x12, 0x05, 0x00] }).setPc 0x203)).readV 10 = 0x42 := by decide

theorem test_halted_ignores :
    (after ((run 0x0000 State.reset).setSchedule (coming [.command .play]))).rs = (run 0x0000 State.reset).rs ∧
    (after ((run 0x0000 State.reset).setSchedule (coming [.cpu]))).rs = (run 0x0000 State.reset).rs := by decide

theorem test_restart :
    after { State.reset with rs := outOfRange, sp := 3, dt := 7, mem := [(0x300, 1)], schedule := coming [.command .restart] } =
    State.reset := by decide

theorem test_step_then_paused :
    (run 0x6A02 (State.reset.setRs .steppingOne)).rs = .paused ∧
    (after { State.reset with rs := .paused, schedule := coming [.command .single] }).rs = .steppingOne := by decide

theorem test_reset_memory :
    State.reset.bytesAt 0x050 5 = [0xF0, 0x90, 0x90, 0x90, 0xF0] ∧ State.reset.byteAt 0x09F = 0x80 ∧ State.reset.byteAt 0x0A0 = 0 ∧
    (under { conventionalConfig with loadBase := .eti, image := [0x6A, 0x02] }).bytesAt 0x600 3 = [0x6A, 0x02, 0] := by decide

theorem test_load_rejects :
    load { conventionalConfig with image := [0x12] } = .fault .imageRejected ∧
    load { conventionalConfig with fontBase := 0x1B1 } = .fault .parameterOutOfRange := ⟨rfl, rfl⟩

theorem test_withFetchWord_runs_next :
    ((run 0x6A02 { State.reset with schedule := coming [.tick, .cpu] }).readV 10 = 2) ∧
    (run 0x6A02 { State.reset with rs := .paused }).readV 10 = 2 ∧ State.reset.withFetchWord 16 0x0000 = State.reset := by decide

theorem test_image_runs :
    (after (under { conventionalConfig with image := [0x6A, 0x02, 0x60, 0x0C] })).readV 10 = 2 := by decide

theorem test_store_over_font_restores :
    (State.reset.storeBytes 0x050 [0x11]).mem = [(0x050, 0x11)] ∧
    ((State.reset.storeBytes 0x050 [0x11]).storeBytes 0x050 [0xF0]).mem = [] := by decide

theorem test_disassemble :
    State.reset.disassemble 0xFFF = none ∧ (State.reset.withFetchWord 16 0xF333).disassemble 0x200 = some (.ok (.ldB 3)) := by decide

/-! ### Witnesses: states that meet each obligation's hypotheses, every clause at the ends of its range -/

theorem test_witness_EncodeInvertsDecode :
    decode 0x00E0 = .ok .cls ∧ decode 0xFF65 = .ok (.ldRegs 15) := by decide

theorem test_witness_StepRuns_turn :
    State.reset.cpuIsNext ∧ (State.reset.setSchedule (coming [.cpu, .tick])).cpuIsNext := ⟨rfl, rfl⟩

theorem test_witness_StepRuns_outOfRange :
    0xFFE < (State.reset.setPc 0xFFF).pc.toNat ∧ 0xFFE < (State.reset.setPc 0xFFFF).pc.toNat := by decide

theorem test_witness_StepRuns_illegal :
    let s := (State.reset.setPc 0xFFE).setRs .steppingOne
    s.pc.toNat ≤ 0xFFE ∧ decode (s.byteAt s.pc.toNat ++ s.byteAt (s.pc.toNat + 1)) = .error .family0 := by decide

theorem test_witness_StepRuns_legal :
    let s := (State.reset.setPc 0xFFE).withFetchWord 16 0x2300
    s.rs = .running ∧ s.pc.toNat ≤ 0xFFE ∧ decode (s.byteAt s.pc.toNat ++ s.byteAt (s.pc.toNat + 1)) = .ok (.call 0x300) := by decide

theorem test_witness_CpuStepTransitions_goesOn :
    let s := (State.reset.setRs .steppingOne).withFetchWord 16 0x6A02
    s.cpuIsNext ∧ (∃ t, step s = .next t ∧ t.rs = .paused) ∧ s.At (.ldImm 10 0x02) ∧ s.sp.val ≠ 16 := ⟨rfl, ⟨_, rfl, rfl⟩, ⟨by decide, by decide⟩, by decide⟩

theorem test_witness_CpuStepTransitions_getKey :
    (State.reset.withFetchWord 16 0xFF0A).At (.ldVxK 15) ∧ ((State.reset.setPc 0xFFE).withFetchWord 16 0xF00A).At (.ldVxK 0) ∧
    ∃ t, step (State.reset.withFetchWord 16 0xFF0A) = .next t ∧ t.rs = .awaitingKey 15 .running := ⟨⟨by decide, by decide⟩, ⟨by decide, by decide⟩, ⟨_, rfl, rfl⟩⟩

theorem test_witness_Raises_illegal :
    (State.reset.setPc 0xFFE).Raises (.illegalInstruction 0xFFE 0x0000) := ⟨rfl, by decide, by decide, ⟨_, rfl⟩⟩

theorem test_witness_Raises_stack :
    ({ State.reset with sp := 16 }.withFetchWord 16 0x2300).Raises (.stackOverflow 0x200) ∧
    (State.reset.withFetchWord 16 0x00EE).Raises (.stackUnderflow 0x200) := 
  ⟨⟨rfl, rfl, 0x300, by decide, by decide⟩, ⟨rfl, rfl, by decide, by decide⟩⟩

theorem test_witness_Raises_fetch :
    (State.reset.setPc 0xFFF).Raises (.addressOutOfRange 0xFFF 0x1000) ∧
    (State.reset.setPc 0x1000).Raises (.addressOutOfRange 0x1000 0x1000) := 
  ⟨⟨rfl, .inl ⟨by decide, by decide⟩⟩, ⟨rfl, .inl ⟨by decide, by decide⟩⟩⟩

theorem test_witness_Raises_data_store :
    ((State.reset.setIndex 0xFFE).withFetchWord 16 0xF033).Raises (.addressOutOfRange 0x200 0x1000) ∧
    ((State.reset.setIndex 0xFF1).withFetchWord 16 0xFF55).Raises (.addressOutOfRange 0x200 0x1000) := 
  ⟨⟨rfl, .inr ⟨by decide, .inl ⟨0, ⟨by decide, by decide⟩, by decide⟩⟩⟩,
    ⟨rfl, .inr ⟨by decide, .inr (.inl ⟨15, .inl ⟨by decide, by decide⟩, by decide⟩)⟩⟩⟩

theorem test_witness_Raises_data_load_draw :
    ((State.reset.setIndex 0x2345).withFetchWord 16 0xF065).Raises (.addressOutOfRange 0x200 0x2345) ∧
    ((State.reset.setIndex 0xFF2).withFetchWord 16 0xD01F).Raises (.addressOutOfRange 0x200 0x1000) := 
  ⟨⟨rfl, .inr ⟨by decide, .inr (.inl ⟨0, .inr ⟨by decide, by decide⟩, by decide⟩)⟩⟩,
    ⟨rfl, .inr ⟨by decide, .inr (.inr ⟨0, 1, 15, ⟨by decide, by decide⟩, by decide, by decide⟩)⟩⟩⟩

theorem test_witness_NoCpuStep :
    let s := { State.reset with rs := .awaitingKey 3 .paused, schedule := coming [.cpu] }
    s.cpuIsNext ∧ s.rs ≠ .running ∧ s.rs ≠ .steppingOne := ⟨rfl, by decide, by decide⟩

theorem test_witness_FaultsArePrecise :
    ∃ t, step State.reset = .next t ∧ t.rs = .halted (.illegalInstruction 0x200 0) ∧ ∀ g, State.reset.rs ≠ .halted g := ⟨_, rfl, rfl, fun _ h => nomatch h⟩

theorem test_witness_Halted :
    let s := { State.reset with rs := outOfRange, dt := 5, schedule := coming [.tick] }
    (∃ t, step s = .next t ∧ t.dt = 4) ∧ s.schedule.next ≠ .command .restart := ⟨⟨_, rfl, rfl⟩, by decide⟩

theorem test_witness_Wait :
    let s := { State.reset with rs := .awaitingKey 3 .running, schedule := coming [.keyUp 3] }
    (∃ t, step s = .next t) ∧ (∀ k, s.schedule.next ≠ .keyDown k) ∧ s.schedule.next ≠ .command .pause ∧
    s.schedule.next ≠ .command .restart := ⟨⟨_, rfl⟩, by decide, by decide, by decide⟩

theorem test_witness_Ret :
    { State.reset with sp := 16 }.sp.val = (15 : Fin 16).val + 1 ∧ { State.reset with sp := 1 }.sp.val = (0 : Fin 16).val + 1 ∧
    State.reset.sp.val = 0 := by decide

theorem test_witness_Call :
    { State.reset with sp := 15 }.sp.val < 16 ∧ State.reset.sp.val < 16 ∧ { State.reset with sp := 16 }.sp.val = 16 := by decide

theorem test_witness_CallThenRet :
    ∃ t, exec (.call 0x300) { State.reset with sp := 15 } = .next t ∧ (t.setPc 0x456).sp = t.sp ∧ (t.setPc 0x456).stack = t.stack := ⟨_, rfl, rfl, rfl⟩

theorem test_witness_JpOffset :
    State.reset.config.jumpReg = .v0 ∧ (under { conventionalConfig with jumpReg := .vx }).config.jumpReg = .vx ∧ (2 : Reg).val = (0x2F0 : Addr).toNat / 256 ∧
    (15 : Reg).val = (0xFFF : Addr).toNat / 256 := by decide

theorem test_witness_Shifts :
    (1 : Reg) = (if State.reset.config.shiftSrc = .vx then 1 else 2) ∧ (2 : Reg) = (if (under { conventionalConfig with shiftSrc := .vy }).config.shiftSrc = .vx then 1 else 2) := by decide

theorem test_witness_LdF :
    State.reset.config.fontBase + 80 ≤ 0x200 ∧ (under { conventionalConfig with fontBase := 0x1B0 }).config.fontBase + 80 ≤ 0x200 := by decide

theorem test_witness_LdB :
    (State.reset.setIndex 0xFFD).index.toNat + 2 ≤ 0xFFF ∧ (State.reset.setIndex 0xFFD).MemoryCanonical := ⟨by decide, rfl⟩

theorem test_witness_StRegs_LdRegs :
    (State.reset.setIndex 0xFF0).index.toNat + (15 : Reg).val ≤ 0xFFF ∧ (State.reset.setIndex 0xFFF).index.toNat + (0 : Reg).val ≤ 0xFFF ∧
    (State.reset.setIndex 0xFF0).MemoryCanonical ∧ (under { conventionalConfig with loadStoreInc := true }).config.loadStoreInc = true ∧ State.reset.config.loadStoreInc = false := ⟨by decide, by decide, rfl, rfl, rfl⟩

theorem test_witness_AccessAbove :
    0xFFF < (State.reset.setIndex 0xFFE).index.toNat + 2 ∧ 0xFFF < (State.reset.setIndex 0xFF1).index.toNat + (15 : Reg).val ∧
    0xFFF < (State.reset.setIndex 0x1000).index.toNat + (0 : Reg).val ∧ 0 < (15 : Nibble).toNat ∧
    0xFFF < (State.reset.setIndex 0xFF2).index.toNat + (15 : Nibble).toNat - 1 := by decide

theorem test_witness_StoreIntoCode :
    let s := State.reset.setIndex 0x202
    s.index.toNat + (1 : Reg).val ≤ 0xFFF ∧ s.MemoryCanonical ∧ (1 : Reg).val = (0 : Reg).val + 1 ∧
    s.index.toNat + (0 : Reg).val = s.pc.toNat + 2 := ⟨by decide, rfl, rfl, rfl⟩

theorem test_witness_Draw :
    (0 : Nibble).toNat = 0 ∧ (State.reset.setIndex 0xFF1).index.toNat + (15 : Nibble).toNat - 1 ≤ 0xFFF := by decide

theorem test_witness_Draw_collides :
    let s := ((withBytes State.reset 0x300 [0x80]).setIndex 0x300).setFb (Framebuffer.flip Framebuffer.blank (0, 0))
    SpriteCovers s 0 1 1 (0, 0) ∧ Framebuffer.pixel s.fb (0, 0) = true ∧ ¬ SpriteCovers s 0 1 0 (0, 0) := 
  ⟨⟨0, 0, by decide, by decide, by decide, by unfold PixelLandsAt; decide⟩, by decide, fun ⟨_, _, h, _⟩ => absurd h (by omega)⟩

theorem test_witness_PixelLandsAt :
    PixelLandsAt .wrap 31 63 (31, 63) ∧ PixelLandsAt .wrap 32 64 (0, 0) ∧ PixelLandsAt .wrap 46 70 (14, 6) ∧
    PixelLandsAt .clip 31 63 (31, 63) := by
  unfold PixelLandsAt; decide

theorem test_witness_PixelLandsAt_dropped :
    (∀ p, ¬ PixelLandsAt .clip 32 0 p) ∧ ∀ p, ¬ PixelLandsAt .clip 0 64 p := by
  refine ⟨fun p h => ?_, fun p h => ?_⟩
  · have := (h.2 rfl).1; omega
  · have := (h.2 rfl).2; omega

theorem test_witness_TwoDraws :
    let s := (withBytes State.reset 0x300 [0xC0]).setIndex 0x300
    ∃ t, exec (.drw 0 1 1) s = .next t ∧ t.config = s.config ∧ t.index = s.index ∧ t.readV 0 = s.readV 0 ∧
      t.readV 1 = s.readV 1 ∧ t.byteAt 0x300 = s.byteAt 0x300 := ⟨_, rfl, rfl, rfl, rfl, rfl, rfl⟩

theorem test_witness_SkipsTestKey :
    (5 : Key).val = ((State.reset.setV 0 0x15).readV 0).toNat % 16 ∧ (15 : Key).val = ((State.reset.setV 0 0xFF).readV 0).toNat % 16 := by decide

theorem test_witness_GetKey :
    State.reset.rs = .running ∧ (State.reset.setRs .steppingOne).rs ≠ .running := by decide

theorem test_witness_KeyDownCompletes :
    { State.reset with rs := .awaitingKey 15 .running, schedule := coming [.keyDown 15] }.schedule.next = .keyDown 15 ∧
    { State.reset with rs := .awaitingKey 0 .paused, schedule := coming [.keyDown 0] }.rs = .awaitingKey 0 .paused := by decide

theorem test_witness_OnlyFlagWriters :
    let s := (State.reset.setV 1 0xFF).setV 2 1
    ∃ t, exec (.addReg 1 2) s = .next t ∧ t.readV 15 ≠ s.readV 15 := ⟨_, rfl, by decide⟩

theorem test_witness_SeparateStores_stack :
    (∃ t, exec (.call 0x300) State.reset = .next t ∧ t.sp ≠ State.reset.sp ∧ t.stack ≠ State.reset.stack) ∧
    ∃ t, exec .ret { State.reset with sp := 1 } = .next t ∧ t.sp ≠ 1 := ⟨⟨_, rfl, by decide, by decide⟩, ⟨_, rfl, by decide⟩⟩

theorem test_witness_SeparateStores_timers :
    let s := State.reset.setV 0 9
    (∃ t, exec (.ldDTVx 0) s = .next t ∧ t.dt ≠ s.dt) ∧ ∃ t, exec (.ldSTVx 0) s = .next t ∧ t.st ≠ s.st := ⟨⟨_, rfl, by decide⟩, ⟨_, rfl, by decide⟩⟩

theorem test_witness_SeparateStores_fb :
    let s := State.reset.setFb (Framebuffer.flip Framebuffer.blank (0, 0))
    ∃ t, exec .cls s = .next t ∧ t.fb ≠ s.fb := ⟨_, rfl, by decide⟩

theorem test_witness_OnlyBcdAndBlockStore :
    let s := ((State.reset.setIndex 0xFFD).setV 0 123)
    (∃ t, exec (.ldB 0) s = .next t ∧ t.byteAt 0xFFF ≠ s.byteAt 0xFFF) ∧
    ∃ t, exec (.stRegs 2) s = .next t ∧ t.byteAt 0xFFD ≠ s.byteAt 0xFFD := ⟨⟨_, rfl, by decide⟩, ⟨_, rfl, by decide⟩⟩

theorem test_witness_Tick :
    let s := { State.reset with dt := 1, schedule := coming [.tick] }
    s.schedule.next = .tick ∧ (s.rs ≠ .paused ∨ s.config.timersWhilePaused = true) := by decide

theorem test_witness_NoTick :
    let s := { under { conventionalConfig with timersWhilePaused := false } with rs := .paused, schedule := coming [.tick] }
    s.schedule.next = .tick ∧ s.rs = .paused ∧ s.config.timersWhilePaused = false := by decide

theorem test_witness_TimersAfterManyTicks :
    let s := { State.reset with dt := 2, schedule := coming [.tick, .tick, .tick, .cpu] }
    (∀ k, k < 3 → (s.schedule.ahead k).next = .tick) ∧ (s.rs ≠ .paused ∨ s.config.timersWhilePaused = true) := by decide

theorem test_witness_KeyEvents :
    (State.reset.setSchedule (coming [.keyUp 0])).schedule.next = .keyUp 0 ∧ (State.reset.setSchedule (coming [.keyDown 15])).schedule.next = .keyDown 15 ∧
    ∀ x r, State.reset.rs ≠ .awaitingKey x r := ⟨rfl, rfl, fun _ _ h => nomatch h⟩

theorem test_witness_Commands_Restart :
    (State.reset.setSchedule (coming [.command .pause])).schedule.next = .command .pause ∧ Command.pause ≠ .restart ∧
    (State.reset.setSchedule (coming [.command .restart])).schedule.next = .command .restart := by decide

theorem test_witness_ResetState :
    { conventionalConfig with fontBase := 0x1B0, loadBase := .eti, image := [0x12, 0x00] }.wf = true := by decide

theorem test_witness_Load :
    (List.replicate 3584 (0 : Byte)).length % 2 = 0 ∧ LoadBase.standard.addr + (List.replicate 3584 (0 : Byte)).length ≤ 4096 ∧
    4096 < LoadBase.eti.addr + (List.replicate 2561 (0 : Byte)).length ∧ 0x200 < 0x1B1 + 80 := by
  simp [LoadBase.addr]

theorem test_witness_OnlyFlagWriters_destination :
    ∃ t, exec (.ldVxDT 15) (State.reset.setDt 7) = .next t ∧ t.readV 15 ≠ (State.reset.setDt 7).readV 15 := ⟨_, rfl, by decide⟩

theorem test_snapshot_fields :
    let s := { State.reset with dt := 1, st := 2, index := 3, sp := 4 }.setKey 5 true
    s.snapshot.dt = 1 ∧ s.snapshot.st = 2 ∧ s.snapshot.index = 3 ∧ s.snapshot.sp = 4 ∧ s.snapshot.keys[5] = true ∧
    s.framebufferSnapshot = Framebuffer.blank := by decide

theorem test_witness_ConfigurationNeverChanges_Coherence_Canonical :
    State.reset.Coherent ∧ State.reset.MemoryCanonical ∧ ∃ t, step (State.reset.withFetchWord 16 0x2300) = .next t := 
  ⟨⟨by unfold State.PcBounded; decide, fun k h => absurd h (Nat.not_lt_zero _), (fun _ _ h => nomatch h), (fun _ h => nomatch h)⟩,
    rfl, ⟨_, rfl⟩⟩

theorem test_witness_Disassembly :
    (State.reset.withFetchWord 16 0x00EE).disassemble 0x200 = some (.ok .ret) ∧ State.reset.disassemble 0x200 = some (.error .family0) ∧
    (State.reset.setPc 0xFFF).disassemble (State.reset.setPc 0xFFF).pc.toNat = none := by decide

theorem test_witness_SelfJump :
    (State.reset.withFetchWord 16 0x1200).inSelfJump ∧ (State.reset.withFetchWord 16 0x1200).cpuIsNext := ⟨⟨rfl, by decide, by decide⟩, rfl⟩

theorem test_ends_fault :
    (after State.reset).EndsBy .fault := by
  unfold State.EndsBy; decide

theorem test_ends_selfJump :
    (State.reset.withFetchWord 16 0x1200).EndsBy .selfJump ∧
    ¬ ((State.reset.withFetchWord 16 0x1200).setRs .paused).EndsBy .selfJump := ⟨⟨rfl, by decide, by decide⟩, fun h => nomatch h.1⟩

theorem test_ends_wait :
    let s := run 0xF10A State.reset
    (s.setSchedule (coming [])).EndsBy .wait ∧ ¬ (s.setSchedule (coming [.tick, .keyDown 3])).EndsBy .wait := 
  ⟨⟨⟨_, _, rfl⟩, fun n k => by
      change ((Schedule.repeating .cpu []).ahead n).next ≠ .keyDown k
      rw [Schedule.ahead_repeating_nil]
      exact fun h => nomatch h⟩,
    fun h => h.2 1 3 rfl⟩

theorem test_schedule_taken :
    (coming [.tick, .keyDown 3]).next = .tick ∧ (coming [.tick, .keyDown 3]).rest = coming [.keyDown 3] ∧
    (Schedule.repeating .cpu [.tick, .keyUp 1]).rest = .repeating .tick [.keyUp 1, .cpu] := by decide

theorem test_repeated_ticks :
    let t := after (after { State.reset.withFetchWord 16 0x1200 with dt := 9, schedule := .repeating .cpu [.tick] })
    t.dt = 8 ∧ t.pc = 0x200 ∧ t.schedule = .repeating .cpu [.tick] := by decide

theorem test_free_schedule :
    (State.reset.setSchedule (.free 7)).schedule.next = Config.comingEvent 7 ∧
    (run 0x6A02 (State.reset.setSchedule (.free 7))).readV 10 = 2 ∧
    (run 0x6A02 (State.reset.setSchedule (.free 7))).schedule = .free 7 := ⟨rfl, rfl, rfl⟩

end Sys2Proof.Tests
end

namespace Sys2Proof.Machine

/-! ### Inversion of the operations that answer an outcome

From a next state: what was done, and under which guard. -/

/-- Inversion of a guarded access (R58). -/
theorem State.withRange_next {s t : State} {n : Nat} {act : Result} (h : s.withRange n act = .next t) :
    (s.rangeOk n = true ∧ act = .next t) ∨
    (s.rangeOk n = false ∧ t = s.setRs (.halted (.addressOutOfRange s.pc s.lowestOffending))) := by
  obtain ⟨hr, he⟩ | ⟨hr, he⟩ := s.withRange_cases n act <;> rw [he] at h
  · exact .inl ⟨hr, h⟩
  · exact .inr ⟨hr, State.raise_next.mp h⟩

theorem settleResult_next {r : Result} {t : State} : settleResult r = .next t ↔ ∃ u, r = .next u ∧ t = u.settle := by
  cases r <;> simp [settleResult, eq_comm]

/-- Inversion of RET (R101). -/
theorem execRet_next {s t : State} (h : execRet s = .next t) :
    (s.stackEmpty = true ∧ t = s.setRs (.halted (.stackUnderflow s.pc))) ∨
    (s.stackEmpty = false ∧ t = s.pop.setPc s.top) := by
  unfold execRet at h
  cases he : s.stackEmpty <;> simp only [he, if_true, Bool.false_eq_true, if_false] at h
  · exact .inr ⟨rfl, (Host.Outcome.next.inj h).symm⟩
  · exact .inl ⟨rfl, State.raise_next.mp h⟩

/-- Inversion of CALL (R103). -/
theorem execCall_next {nnn : Addr} {s t : State} (h : execCall nnn s = .next t) :
    (s.stackFull = true ∧ t = s.setRs (.halted (.stackOverflow s.pc))) ∨
    (s.stackFull = false ∧ t = (s.push s.next).setPc (zextAddr nnn)) := by
  unfold execCall at h
  cases hf : s.stackFull <;> simp only [hf, if_true, Bool.false_eq_true, if_false] at h
  · exact .inr ⟨rfl, (Host.Outcome.next.inj h).symm⟩
  · exact .inl ⟨rfl, State.raise_next.mp h⟩

/-- Inversion of the CPU step (R200): a fetch fault, an illegal word, or one instruction executed and settled. -/
theorem State.cpuStep_next {s t : State} (h : s.cpuStep = .next t) :
    (∃ f, s.fetch = .error f ∧ t = s.setRs (.halted f)) ∨
    (∃ w e, s.fetch = .ok w ∧ decode w = .error e ∧ t = s.setRs (.halted (.illegalInstruction s.pc w))) ∨
    (∃ w i u, s.fetch = .ok w ∧ decode w = .ok i ∧ exec i s = .next u ∧ t = u.settle) := by
  unfold State.cpuStep at h
  split at h
  case h_1 f hf => exact .inl ⟨f, hf, State.raise_next.mp h⟩
  case h_2 w hw =>
    split at h
    case h_1 e he => exact .inr (.inl ⟨w, e, hw, he, State.raise_next.mp h⟩)
    case h_2 i hi =>
      obtain ⟨u, hu, rfl⟩ := settleResult_next.mp h
      exact .inr (.inr ⟨w, i, u, hw, hi, hu, rfl⟩)

/-- Inversion of the CPU's turn (R226): a CPU step where one is enabled, else nothing. -/
theorem State.offerCpu_next {s t : State} (h : s.offerCpu = .next t) :
    (s.rs.runsCpu = true ∧ s.cpuStep = .next t) ∨ (s.rs.runsCpu = false ∧ t = s) := by
  cases hr : s.rs.runsCpu
  · rw [State.offerCpu_disabled hr] at h
    exact .inr ⟨rfl, (Host.Outcome.next.inj h).symm⟩
  · rw [State.offerCpu_enabled hr] at h
    exact .inl ⟨rfl, h⟩

/-! ### The configuration under the steps of the timer and of the host (R32). -/

@[simp] theorem State.afterHead_config (s : State) : s.afterHead.config = s.config := rfl

@[simp] theorem State.completeWait_config (s : State) (x : Reg) (r : Resume) (k : Key) :
    (s.completeWait x r k).config = s.config := rfl

@[simp] theorem State.keyDown_config (s : State) (k : Key) : (s.keyDown k).config = s.config := by
  unfold State.keyDown; split <;> simp

@[simp] theorem State.keyUp_config (s : State) (k : Key) : (s.keyUp k).config = s.config := rfl

@[simp] theorem State.restart_config (s : State) : s.restart.config = s.config := rfl

@[simp] theorem State.pause_config (s : State) : s.pause.config = s.config := by
  unfold State.pause; split <;> simp

@[simp] theorem State.play_config (s : State) : s.play.config = s.config := by
  unfold State.play; split <;> simp

@[simp] theorem State.single_config (s : State) : s.single.config = s.config := by
  unfold State.single; split <;> simp

@[simp] theorem State.command_config (s : State) (c : Command) : (s.command c).config = s.config := by
  cases c <;> simp [State.command]

/-! ### The configuration under the CPU step and under every step (R32). -/

/-- No instruction changes the configuration: what it answers is made by the state's operations, none of which does. -/
theorem exec_config {i : Instr} {s t : State} (h : exec i s = .next t) : t.config = s.config := by
  cases i
  case ret => obtain ⟨-, rfl⟩ | ⟨-, rfl⟩ := execRet_next h <;> simp
  case call => obtain ⟨-, rfl⟩ | ⟨-, rfl⟩ := execCall_next h <;> simp
  case drw | ldB | stRegs | ldRegs =>
    obtain ⟨-, h⟩ | ⟨-, rfl⟩ := State.withRange_next h
    · cases h; simp
    · simp
  -- every other instruction answers one next state from every state
  all_goals cases h; simp

theorem State.cpuStep_config {s t : State} (h : s.cpuStep = .next t) : t.config = s.config := by
  obtain ⟨f, -, rfl⟩ | ⟨w, e, -, -, rfl⟩ | ⟨w, i, u, -, -, hu, rfl⟩ := State.cpuStep_next h
  · simp
  · simp
  · rw [State.settle_config, exec_config hu]

theorem State.perform_config {s t : State} {e : Event} (h : s.perform e = .next t) : t.config = s.config := by
  cases e with
  | cpu =>
    obtain ⟨-, h⟩ | ⟨-, rfl⟩ := State.offerCpu_next h
    · exact State.cpuStep_config h
    · rfl
  | tick => cases h; simp
  | keyDown k => cases h; simp
  | keyUp k => cases h; simp
  | command c => cases h; simp

/-- Settles O54, by the inversion of a step into the steps of the agents. -/
theorem configurationNeverChanges : Obligations.ConfigurationNeverChanges := by
  intro s t h
  rw [step_eq] at h
  rw [State.perform_config h, State.afterHead_config]

end Sys2Proof.Machine

namespace Sys2Proof.Machine

/-! ### Frames and the way on

`SameExcept` through the state's operations: a frame starts at `SameExcept.refl` and takes in one write after another. -/

theorem SameExcept.refl (l : List Piece) (s : State) : SameExcept l s s := by
  simp [SameExcept]

theorem SameExcept.setPc {l : List Piece} {s t : State} (h : SameExcept l s t) (hl : .pc ∈ l) (w : Word) :
    SameExcept l s (t.setPc w) := by
  simpa [SameExcept, hl, State.byteAt] using h

theorem SameExcept.advance {l : List Piece} {s t : State} (h : SameExcept l s t) (hl : .pc ∈ l) :
    SameExcept l s t.advance :=
  h.setPc hl t.next

theorem SameExcept.setFb {l : List Piece} {s t : State} (h : SameExcept l s t) (hl : .fb ∈ l) (fb : Framebuffer) :
    SameExcept l s (t.setFb fb) := by
  simpa [SameExcept, hl, State.byteAt] using h

/-- Going on after writes that left the `PC` alone (R22). -/
theorem State.pcNext_advance {s t : State} (h : t.pc = s.pc) : PcNext s t.advance := by
  rw [PcNext, State.advance_pc, h, BitVec.toNat_add]
  rfl

theorem zextAddr_toNat (nnn : Addr) : (zextAddr nnn).toNat = nnn.toNat :=
  BitVec.toNat_setWidth_of_le (by decide)

/-! ### CLS and JP (R100, R102) -/

/-- Settles O13: the screen is blanked and the `PC` advanced, and the frame takes in these two writes. -/
theorem clsClearsTheScreen : Obligations.ClsClearsTheScreen := by
  intro s
  exact ⟨(s.setFb Framebuffer.blank).advance, rfl, Framebuffer.pixel_blank, State.pcNext_advance (State.setFb_pc s _),
    ((SameExcept.refl _ s).setFb (by decide) _).advance (by decide)⟩

/-- Settles O15: zero-extension keeps the address's value, and the frame takes in the one write of the `PC`. -/
theorem jpSetsThePc : Obligations.JpSetsThePc := by
  intro nnn s
  exact ⟨s.setPc (zextAddr nnn), rfl, zextAddr_toNat nnn, (SameExcept.refl _ s).setPc (by decide) _⟩

end Sys2Proof.Machine

namespace Sys2Proof.Machine

/-! ### Skips (R110 to R114)

Every skip answers `skipIf` of its comparison, so one lemma about `skipIf` gives its way on and its frame. -/

theorem SameExcept.skipIf {l : List Piece} {s t : State} (h : SameExcept l s t) (hl : .pc ∈ l) (c : Bool) :
    SameExcept l s (t.skipIf c) := by
  cases c with
  | false => exact h.advance hl
  | true => exact h.setPc hl (t.pc + 4)

/-- A skip by a test `c` that decides the proposition `p` skips when `p` holds (R114). -/
theorem State.pcSkip_skipIf {p : Prop} {c : Bool} (hc : c = true ↔ p) (s : State) : PcSkip p s (s.skipIf c) := by
  constructor
  · intro hp
    rw [State.skipIf_pc, if_pos (hc.mpr hp), BitVec.toNat_add]
    rfl
  · intro hp
    rw [PcNext, State.skipIf_pc, if_neg (mt hc.mp hp), BitVec.toNat_add]
    rfl

/-- The way on of a skip and its frame: nothing but the `PC` changes. -/
theorem State.skipIf_spec {p : Prop} {c : Bool} (hc : c = true ↔ p) (s : State) :
    PcSkip p s (s.skipIf c) ∧ SameExcept [.pc] s (s.skipIf c) :=
  ⟨s.pcSkip_skipIf hc, (SameExcept.refl _ s).skipIf (by decide) c⟩

theorem beq_iff_toNat_eq (a b : Byte) : (a == b) = true ↔ a.toNat = b.toNat :=
  beq_iff_eq.trans BitVec.toNat_inj.symm

theorem bne_iff_toNat_ne (a b : Byte) : (a != b) = true ↔ a.toNat ≠ b.toNat :=
  bne_iff_ne.trans BitVec.toNat_inj.not.symm

/-- Settles O19: 3XNN and 4XNN skip by the register's comparison with the immediate. -/
theorem skipsCompareWithTheImmediate : Obligations.SkipsCompareWithTheImmediate := by
  intro x nn s
  exact ⟨⟨s.skipIf (s.readV x == nn), rfl, s.skipIf_spec (beq_iff_toNat_eq _ _)⟩,
    ⟨s.skipIf (s.readV x != nn), rfl, s.skipIf_spec (bne_iff_toNat_ne _ _)⟩⟩

/-- Settles O20: 5XY0 and 9XY0 skip by the comparison of the two registers. -/
theorem skipsCompareTwoRegisters : Obligations.SkipsCompareTwoRegisters := by
  intro x y s
  exact ⟨⟨s.skipIf (s.readV x == s.readV y), rfl, s.skipIf_spec (beq_iff_toNat_eq _ _)⟩,
    ⟨s.skipIf (s.readV x != s.readV y), rfl, s.skipIf_spec (bne_iff_toNat_ne _ _)⟩⟩

end Sys2Proof.Machine

namespace Sys2Proof.Machine

/-! ### Register writes (R120, R121)

An instruction whose whole effect is a value into `V[x]` answers `(s.setV x b).advance`: one lemma says what that does. -/

theorem SameExcept.setV {l : List Piece} {s t : State} (h : SameExcept l s t) (hl : .v ∈ l) (x : Reg) (b : Byte) :
    SameExcept l s (t.setV x b) := by
  simpa [SameExcept, hl, State.byteAt] using h

/-- A byte into `V[x]` and on to the next instruction: `V[x]` holds it, and nothing else changes but the `PC`. -/
theorem State.setV_advance_spec (s : State) (x : Reg) (b : Byte) :
    (s.setV x b).advance.readV x = b ∧ OtherRegistersKept x s (s.setV x b).advance ∧
      PcNext s (s.setV x b).advance ∧ SameExcept [.v, .pc] s (s.setV x b).advance :=
  ⟨s.readV_setV_same x b, fun _ hj => s.readV_setV_other b hj, State.pcNext_advance (s.setV_pc x b),
    ((SameExcept.refl _ s).setV (by decide) x b).advance (by decide)⟩

/-- Settles O21: 6XNN writes the immediate into `V[x]` and goes on. -/
theorem ldImmediateSetsTheRegister : Obligations.LdImmediateSetsTheRegister := by
  intro x nn s
  exact ⟨(s.setV x nn).advance, rfl, s.setV_advance_spec x nn⟩

/-- Settles O22: 7XNN writes into `V[x]` the sum of two bytes, which is the sum of their values modulo 256. -/
theorem addImmediateWrapsWithoutFlag : Obligations.AddImmediateWrapsWithoutFlag := by
  intro x nn s
  obtain ⟨hx, hframe⟩ := s.setV_advance_spec x (s.readV x + nn)
  refine ⟨(s.setV x (s.readV x + nn)).advance, rfl, ?_, hframe⟩
  rw [hx, BitVec.toNat_add]

end Sys2Proof.Machine

namespace Sys2Proof.Machine

/-! ### Index writes (R140)

An instruction whose whole effect is a value into `I` answers `(s.setIndex w).advance`: one lemma says what that does. -/

theorem SameExcept.setIndex {l : List Piece} {s t : State} (h : SameExcept l s t) (hl : .index ∈ l) (w : Word) :
    SameExcept l s (t.setIndex w) := by
  simpa [SameExcept, hl, State.byteAt] using h

/-- A word into `I` and on to the next instruction: `I` holds it, and nothing else changes but the `PC`. -/
theorem State.setIndex_advance_spec (s : State) (w : Word) :
    (s.setIndex w).advance.index = w ∧ PcNext s (s.setIndex w).advance ∧
      SameExcept [.index, .pc] s (s.setIndex w).advance :=
  ⟨rfl, State.pcNext_advance (s.setIndex_pc w),
    ((SameExcept.refl _ s).setIndex (by decide) w).advance (by decide)⟩

/-- Settles O28: ANNN writes the zero-extended address into `I`, and zero-extension keeps its value. -/
theorem ldISetsTheIndex : Obligations.LdISetsTheIndex := by
  intro nnn s
  obtain ⟨hindex, hframe⟩ := s.setIndex_advance_spec (zextAddr nnn)
  refine ⟨(s.setIndex (zextAddr nnn)).advance, rfl, ?_, hframe⟩
  rw [hindex, zextAddr_toNat]

end Sys2Proof.Machine

namespace Sys2Proof.Machine

/-! ### Timer instructions (R170 to R172)

FX07 is a register write; FX15 and FX18 each write one timer and go on. -/

theorem SameExcept.setDt {l : List Piece} {s t : State} (h : SameExcept l s t) (hl : .dt ∈ l) (b : Byte) :
    SameExcept l s (t.setDt b) := by
  simpa [SameExcept, hl, State.byteAt] using h

theorem SameExcept.setSt {l : List Piece} {s t : State} (h : SameExcept l s t) (hl : .st ∈ l) (b : Byte) :
    SameExcept l s (t.setSt b) := by
  simpa [SameExcept, hl, State.byteAt] using h

/-- A byte into `DT` and on to the next instruction: `DT` holds it, and nothing else changes but the `PC`. -/
theorem State.setDt_advance_spec (s : State) (b : Byte) :
    (s.setDt b).advance.dt = b ∧ PcNext s (s.setDt b).advance ∧ SameExcept [.dt, .pc] s (s.setDt b).advance :=
  ⟨rfl, State.pcNext_advance (s.setDt_pc b), ((SameExcept.refl _ s).setDt (by decide) b).advance (by decide)⟩

/-- A byte into `ST` and on to the next instruction: `ST` holds it, and nothing else changes but the `PC`. -/
theorem State.setSt_advance_spec (s : State) (b : Byte) :
    (s.setSt b).advance.st = b ∧ PcNext s (s.setSt b).advance ∧ SameExcept [.st, .pc] s (s.setSt b).advance :=
  ⟨rfl, State.pcNext_advance (s.setSt_pc b), ((SameExcept.refl _ s).setSt (by decide) b).advance (by decide)⟩

/-- Settles O41: FX07 writes `DT` into `V[x]`, FX15 and FX18 write `V[x]` into their timer, and each goes on. -/
theorem timerInstructionsMoveTheTimers : Obligations.TimerInstructionsMoveTheTimers := by
  intro x s
  exact ⟨⟨(s.setV x s.dt).advance, rfl, s.setV_advance_spec x s.dt⟩,
    ⟨(s.setDt (s.readV x)).advance, rfl, s.setDt_advance_spec (s.readV x)⟩,
    ⟨(s.setSt (s.readV x)).advance, rfl, s.setSt_advance_spec (s.readV x)⟩⟩

end Sys2Proof.Machine

namespace Sys2Proof.Machine

/-! ### The machine in `Halted` (R205, R209)

In `Halted` an agent's step other than `restart` is a tick, a key write or nothing: one inversion says so, and the run
state and the frame follow from these three. -/

theorem SameExcept.setKey {l : List Piece} {s t : State} (h : SameExcept l s t) (hl : .keys ∈ l) (k : Key) (b : Bool) :
    SameExcept l s (t.setKey k b) := by
  simpa [SameExcept, hl, State.byteAt] using h

theorem SameExcept.afterHead {l : List Piece} {s t : State} (h : SameExcept l s t) (hl : .schedule ∈ l) :
    SameExcept l s t.afterHead := by
  simpa [SameExcept, hl, State.byteAt, State.afterHead] using h

theorem SameExcept.tick {l : List Piece} {s t : State} (h : SameExcept l s t) (hdt : .dt ∈ l) (hst : .st ∈ l) :
    SameExcept l s t.tick := by
  unfold State.tick
  split
  · exact (h.setDt hdt _).setSt hst _
  · exact h

theorem State.offerCpu_of_halted {s : State} {f : CoreFault} (hs : s.rs = .halted f) : s.offerCpu = .next s :=
  State.offerCpu_disabled (by rw [hs]; rfl)

theorem State.keyDown_of_halted {s : State} {f : CoreFault} (hs : s.rs = .halted f) (k : Key) :
    s.keyDown k = s.setKey k true := by
  simp [State.keyDown, hs]

theorem State.command_of_halted {s : State} {f : CoreFault} (hs : s.rs = .halted f) {c : Command} (hc : c ≠ .restart) :
    s.command c = s := by
  cases c with
  | pause => simp [State.command, State.pause, hs]
  | play => simp [State.command, State.play, hs]
  | single => simp [State.command, State.single, hs]
  | restart => exact absurd rfl hc

/-- Inversion of an agent's step in `Halted`, `restart` aside (R209): the CPU and the commands do nothing there. -/
theorem State.perform_next_of_halted {s t : State} {f : CoreFault} {e : Event} (hs : s.rs = .halted f)
    (he : e ≠ .command .restart) (h : s.perform e = .next t) :
    t = s ∨ t = s.tick ∨ ∃ k b, t = s.setKey k b := by
  cases e with
  | cpu => exact .inl (Host.Outcome.next.inj ((State.offerCpu_of_halted hs).symm.trans h)).symm
  | tick => exact .inr (.inl (Host.Outcome.next.inj h).symm)
  | keyDown k =>
    exact .inr (.inr ⟨k, true, (Host.Outcome.next.inj h).symm.trans (State.keyDown_of_halted hs k)⟩)
  | keyUp k => exact .inr (.inr ⟨k, false, (Host.Outcome.next.inj h).symm⟩)
  | command c =>
    have hc : c ≠ .restart := fun hc => he (congrArg Event.command hc)
    exact .inl ((Host.Outcome.next.inj h).symm.trans (State.command_of_halted hs hc))

/-- Settles O11: a tick writes only the timers and a key event only the keypad, so the run state keeps its fault. -/
theorem haltedIsLeftOnlyByRestart : Obligations.HaltedIsLeftOnlyByRestart := by
  intro s t f hs h hrestart
  have hhead : s.afterHead.rs = .halted f := hs
  have hframe : SameExcept [.dt, .st, .keys, .schedule] s s.afterHead := (SameExcept.refl _ s).afterHead (by decide)
  rw [step_eq] at h
  obtain rfl | rfl | ⟨k, b, rfl⟩ := State.perform_next_of_halted hhead hrestart h
  · exact ⟨hhead, hframe⟩
  · exact ⟨by rw [State.tick_rs, hhead], hframe.tick (by decide) (by decide)⟩
  · exact ⟨by rw [State.setKey_rs, hhead], hframe.setKey (by decide) k b⟩

end Sys2Proof.Machine

namespace Sys2Proof

/-! ### The fields of an encoded word, and the word made of its fields (R71, R72) -/

@[simp] theorem opOf_encodeNNN (op : Nibble) (nnn : Addr) : opOf (encodeNNN op nnn) = op :=
  BitVec.eq_of_toNat_eq (by rw [opOf_toNat, encodeNNN_toNat]; omega)

@[simp] theorem nnnOf_encodeNNN (op : Nibble) (nnn : Addr) : nnnOf (encodeNNN op nnn) = nnn :=
  BitVec.eq_of_toNat_eq (by rw [nnnOf_toNat, encodeNNN_toNat]; omega)

@[simp] theorem opOf_encodeXNN (op : Nibble) (x : Reg) (nn : Byte) : opOf (encodeXNN op x nn) = op :=
  BitVec.eq_of_toNat_eq (by rw [opOf_toNat, encodeXNN_toNat]; omega)

@[simp] theorem xOf_encodeXNN (op : Nibble) (x : Reg) (nn : Byte) : xOf (encodeXNN op x nn) = x :=
  Fin.ext (by rw [xOf_val, encodeXNN_toNat]; omega)

@[simp] theorem nnOf_encodeXNN (op : Nibble) (x : Reg) (nn : Byte) : nnOf (encodeXNN op x nn) = nn :=
  BitVec.eq_of_toNat_eq (by rw [nnOf_toNat, encodeXNN_toNat]; omega)

@[simp] theorem opOf_encodeXYN (op : Nibble) (x y : Reg) (n : Nibble) : opOf (encodeXYN op x y n) = op :=
  BitVec.eq_of_toNat_eq (by rw [opOf_toNat, encodeXYN_toNat]; omega)

@[simp] theorem xOf_encodeXYN (op : Nibble) (x y : Reg) (n : Nibble) : xOf (encodeXYN op x y n) = x :=
  Fin.ext (by rw [xOf_val, encodeXYN_toNat]; omega)

@[simp] theorem yOf_encodeXYN (op : Nibble) (x y : Reg) (n : Nibble) : yOf (encodeXYN op x y n) = y :=
  Fin.ext (by rw [yOf_val, encodeXYN_toNat]; omega)

@[simp] theorem nOf_encodeXYN (op : Nibble) (x y : Reg) (n : Nibble) : nOf (encodeXYN op x y n) = n :=
  BitVec.eq_of_toNat_eq (by rw [nOf_toNat, encodeXYN_toNat]; omega)

theorem encodeNNN_fields {w : Word} {op : Nibble} (hop : (opOf w).toNat = op.toNat) : encodeNNN op (nnnOf w) = w :=
  BitVec.eq_of_toNat_eq (by rw [encodeNNN_toNat, ← hop, opOf_toNat, nnnOf_toNat]; omega)

theorem encodeXNN_fields {w : Word} {op : Nibble} {nn : Byte} (hop : (opOf w).toNat = op.toNat)
    (hnn : (nnOf w).toNat = nn.toNat) : encodeXNN op (xOf w) nn = w :=
  BitVec.eq_of_toNat_eq (by rw [encodeXNN_toNat, ← hop, ← hnn, opOf_toNat, xOf_val, nnOf_toNat]; omega)

theorem encodeXYN_fields {w : Word} {op n : Nibble} (hop : (opOf w).toNat = op.toNat)
    (hn : (nOf w).toNat = n.toNat) : encodeXYN op (xOf w) (yOf w) n = w :=
  BitVec.eq_of_toNat_eq (by rw [encodeXYN_toNat, ← hop, ← hn, opOf_toNat, xOf_val, yOf_val, nOf_toNat]; omega)

/-- Settles O1, each word by running the decoder. -/
theorem decodesTheSpecsWords : Obligations.DecodesTheSpecsWords := by
  unfold Obligations.DecodesTheSpecsWords; decide

/-! ### Decoding what was encoded (R70, R74) -/

theorem decode_encode (i : Instr) : decode (encode i) = .ok i := by
  cases i
  case cls | ret => rfl
  -- the family alone decides
  case jp | call | ldI | jpOffset | seImm | sneImm | ldImm | addImm | rnd | drw => simp [encode, decode]
  -- the family and the code `n`
  case seReg | sneReg => simp [encode, decode]
  case ldReg | orReg | andReg | xorReg | addReg | subReg | shr | subnReg | shl => simp [encode, decode, decodeFamily8]
  -- the family and the code `nn`
  case skp | sknp => simp [encode, decode, decodeFamilyE]
  case ldVxDT | ldVxK | ldDTVx | ldSTVx | addI | ldF | ldB | stRegs | ldRegs => simp [encode, decode, decodeFamilyF]

theorem decodeBytes_encodeBytes (i : Instr) (rest : List Byte) : decodeBytes (encodeBytes i ++ rest) = .ok (i, rest) := by
  simp [encodeBytes, decodeBytes, wordOfBytes_encodeBytes, decode_encode]

/-- Settles O2: each instruction's fields are read back from its word, and its two bytes make its word. -/
theorem decodeEncodeRoundTrip : Obligations.DecodeEncodeRoundTrip := fun i rest =>
  ⟨decode_encode i, decodeBytes_encodeBytes i rest⟩

/-! ### Encoding what was decoded (R70, R77) -/

theorem encode_of_decodeFamily0 {w : Word} {i : Instr} (h : decodeFamily0 w = .ok i) : encode i = w := by
  unfold decodeFamily0 at h
  split at h
  case isTrue hw => cases h; exact hw.symm
  case isFalse =>
    split at h
    case isTrue hw => cases h; exact hw.symm
    case isFalse => cases h

theorem encode_of_decodeFamily8 {w : Word} {i : Instr} (hop : (opOf w).toNat = 8) (h : decodeFamily8 w = .ok i) :
    encode i = w := by
  unfold decodeFamily8 at h
  split at h <;> cases h
  all_goals rename_i hn; exact encodeXYN_fields hop hn

theorem encode_of_decodeFamilyE {w : Word} {i : Instr} (hop : (opOf w).toNat = 14) (h : decodeFamilyE w = .ok i) :
    encode i = w := by
  unfold decodeFamilyE at h
  split at h <;> cases h
  all_goals rename_i hnn; exact encodeXNN_fields hop hnn

theorem encode_of_decodeFamilyF {w : Word} {i : Instr} (hop : (opOf w).toNat = 15) (h : decodeFamilyF w = .ok i) :
    encode i = w := by
  unfold decodeFamilyF at h
  split at h <;> cases h
  all_goals rename_i hnn; exact encodeXNN_fields hop hnn

theorem encode_of_decode {w : Word} {i : Instr} (h : decode w = .ok i) : encode i = w := by
  unfold decode at h
  split at h
  case h_1 => exact encode_of_decodeFamily0 h
  case h_2 hop | h_3 hop | h_11 hop | h_12 hop => cases h; exact encodeNNN_fields hop
  case h_4 hop | h_5 hop | h_7 hop | h_8 hop | h_13 hop => cases h; exact encodeXNN_fields hop rfl
  case h_6 hop | h_10 hop =>
    split at h <;> cases h
    case isTrue hn => exact encodeXYN_fields hop (congrArg BitVec.toNat hn)
  case h_9 hop => exact encode_of_decodeFamily8 hop h
  case h_14 hop => cases h; exact encodeXYN_fields hop rfl
  case h_15 hop => exact encode_of_decodeFamilyE hop h
  case h_16 => exact encode_of_decodeFamilyF (by simp only [imp_false] at *; omega) h

/-- Settles O3: a decoded instruction holds every field of its word. -/
theorem encodeInvertsDecode : Obligations.EncodeInvertsDecode := fun _ _ => encode_of_decode

/-! ### The illegal words (R76) -/

theorem decodeFamily0_error_iff (w : Word) :
    (∃ e, decodeFamily0 w = .error e) ↔ w.toNat ≠ 0x00E0 ∧ w.toNat ≠ 0x00EE := by
  have hcls : w = 0x00E0 ↔ w.toNat = 0x00E0 := BitVec.toNat_inj.symm
  have hret : w = 0x00EE ↔ w.toNat = 0x00EE := BitVec.toNat_inj.symm
  rw [ne_eq, ne_eq, ← hcls, ← hret]
  unfold decodeFamily0
  split
  case isTrue hw => simp [hw]
  case isFalse hw =>
    split
    case isTrue hw' => simp [hw']
    case isFalse hw' => exact iff_of_true ⟨_, rfl⟩ ⟨hw, hw'⟩

theorem decodeFamily8_error_iff (w : Word) :
    (∃ e, decodeFamily8 w = .error e) ↔ 8 ≤ w.toNat % 16 ∧ w.toNat % 16 ≤ 0xD ∨ w.toNat % 16 = 0xF := by
  unfold decodeFamily8
  rw [nOf_toNat]
  split <;> simp only [reduceCtorEq, exists_false, Except.error.injEq, exists_eq', true_iff, false_iff, imp_false] at *
  all_goals omega

theorem decodeFamilyE_error_iff (w : Word) :
    (∃ e, decodeFamilyE w = .error e) ↔ w.toNat % 256 ≠ 0x9E ∧ w.toNat % 256 ≠ 0xA1 := by
  unfold decodeFamilyE
  rw [nnOf_toNat]
  split <;> simp_all

theorem decodeFamilyF_error_iff (w : Word) :
    (∃ e, decodeFamilyF w = .error e) ↔
      w.toNat % 256 ∉ [0x07, 0x0A, 0x15, 0x18, 0x1E, 0x29, 0x33, 0x55, 0x65] := by
  unfold decodeFamilyF
  rw [nnOf_toNat]
  split <;> simp_all

theorem nOf_eq_zero_iff (w : Word) : nOf w = 0 ↔ w.toNat % 16 = 0 := by
  rw [← nOf_toNat]; exact BitVec.toNat_inj.symm

/-- Settles O5: the family nibble selects the group, and the family's decoder gives the group's condition. -/
theorem illegalWordsAreTheSixGroups : Obligations.IllegalWordsAreTheSixGroups := by
  intro w
  have hw := w.isLt
  rw [← opOf_toNat]
  unfold decode
  split
  case h_1 hop => simp [hop, decodeFamily0_error_iff]
  case h_6 hop | h_10 hop => simp only [nOf_eq_zero_iff, hop]; split <;> simp [*]
  case h_9 hop => simp [hop, decodeFamily8_error_iff]
  case h_15 hop => simp [hop, decodeFamilyE_error_iff]
  case h_16 =>
    have hop : (opOf w).toNat = 15 := by simp only [imp_false] at *; omega
    simp only [hop, decodeFamilyF_error_iff]
    simp
  -- every word of the other families decodes
  all_goals simp [*]

/-! ### The rows of the opcode map (R75) -/

theorem Laws.Row.all (i : Instr) : Laws.Row.Statement i := by
  cases i with
  | cls => exact Row.cls
  | ret => exact Row.ret
  | jp nnn => exact Row.jp nnn
  | call nnn => exact Row.call nnn
  | seImm x nn => exact Row.seImm x nn
  | sneImm x nn => exact Row.sneImm x nn
  | seReg x y => exact Row.seReg x y
  | ldImm x nn => exact Row.ldImm x nn
  | addImm x nn => exact Row.addImm x nn
  | ldReg x y => exact Row.ldReg x y
  | orReg x y => exact Row.orReg x y
  | andReg x y => exact Row.andReg x y
  | xorReg x y => exact Row.xorReg x y
  | addReg x y => exact Row.addReg x y
  | subReg x y => exact Row.subReg x y
  | shr x y => exact Row.shr x y
  | subnReg x y => exact Row.subnReg x y
  | shl x y => exact Row.shl x y
  | sneReg x y => exact Row.sneReg x y
  | ldI nnn => exact Row.ldI nnn
  | jpOffset nnn => exact Row.jpOffset nnn
  | rnd x nn => exact Row.rnd x nn
  | drw x y n => exact Row.drw x y n
  | skp x => exact Row.skp x
  | sknp x => exact Row.sknp x
  | ldVxDT x => exact Row.ldVxDT x
  | ldVxK x => exact Row.ldVxK x
  | ldDTVx x => exact Row.ldDTVx x
  | ldSTVx x => exact Row.ldSTVx x
  | addI x => exact Row.addI x
  | ldF x => exact Row.ldF x
  | ldB x => exact Row.ldB x
  | stRegs x => exact Row.stRegs x
  | ldRegs x => exact Row.ldRegs x

/-- A legal word lies in its instruction's row. -/
theorem inRow_rowOf {w : Word} {i : Instr} (h : decode w = .ok i) :
    ∃ row, opcodeRows[rowOf i]? = some row ∧ inRow w row = true :=
  encode_of_decode h ▸ Laws.Row.all i

/-- Any two rows differ in a bit that both of them fix. -/
theorem opcodeRows_pairwise : opcodeRows.Pairwise fun r q => r.1 &&& q.2 ≠ q.1 &&& r.2 := by decide

theorem eq_of_inRow_of_inRow {w : Word} {j k : Nat} {r q : Word × Word} (hj : opcodeRows[j]? = some r)
    (hk : opcodeRows[k]? = some q) (hr : inRow w r = true) (hq : inRow w q = true) : j = k := by
  have hagree : r.1 &&& q.2 = q.1 &&& r.2 := by
    rw [← beq_iff_eq.mp hr, ← beq_iff_eq.mp hq, BitVec.and_assoc, BitVec.and_assoc, BitVec.and_comm r.2]
  obtain ⟨hj', rfl⟩ := List.getElem?_eq_some_iff.mp hj
  obtain ⟨hk', rfl⟩ := List.getElem?_eq_some_iff.mp hk
  have hpair := List.pairwise_iff_getElem.mp opcodeRows_pairwise
  obtain hlt | heq | hgt := Nat.lt_trichotomy j k
  · exact absurd hagree (hpair j k hj' hk' hlt)
  · exact heq
  · exact absurd hagree.symm (hpair k j hk' hj' hgt)

/-- A row fixes a field of its words when its mask has all of the field's bits. -/
theorem fields_of_and {w m k : Word} (h : w &&& k = m) :
    (opOf k = 0xF → opOf w = opOf m) ∧ (nOf k = 0xF → nOf w = nOf m) ∧ (nnOf k = 0xFF → nnOf w = nnOf m) := by
  subst h
  have hop : opOf (w &&& k) = opOf w &&& opOf k := BitVec.extractLsb'_and
  have hn : nOf (w &&& k) = nOf w &&& nOf k := BitVec.extractLsb'_and
  have hnn : nnOf (w &&& k) = nnOf w &&& nnOf k := BitVec.extractLsb'_and
  refine ⟨fun hk => ?_, fun hk => ?_, fun hk => ?_⟩
  · rw [hop, hk]; exact BitVec.and_allOnes.symm
  · rw [hn, hk]; exact BitVec.and_allOnes.symm
  · rw [hnn, hk]; exact BitVec.and_allOnes.symm

/-- Every row fixes the family and what its family's decoder looks at, and the decoder accepts these values. -/
theorem opcodeRows_fix_legal_fields : ∀ row ∈ opcodeRows, opOf row.2 = 0xF ∧
    ((opOf row.1).toNat ∉ [0, 5, 8, 9, 0xE, 0xF] ∨
     (nOf row.2 = 0xF ∧ (opOf row.1).toNat ∈ [5, 9] ∧ (nOf row.1).toNat = 0) ∨
     (nOf row.2 = 0xF ∧ (opOf row.1).toNat = 8 ∧ (nOf row.1).toNat ∈ [0, 1, 2, 3, 4, 5, 6, 7, 0xE]) ∨
     (nnOf row.2 = 0xFF ∧ (opOf row.1).toNat = 0xE ∧ (nnOf row.1).toNat ∈ [0x9E, 0xA1]) ∨
     (nnOf row.2 = 0xFF ∧ (opOf row.1).toNat = 0xF ∧
       (nnOf row.1).toNat ∈ [0x07, 0x0A, 0x15, 0x18, 0x1E, 0x29, 0x33, 0x55, 0x65]) ∨
     (row.2 = BitVec.allOnes 16 ∧ row.1.toNat ∈ [0x00E0, 0x00EE])) := by decide

/-- A word in a row of the map is none of the six groups. -/
theorem decode_ok_of_inRow {w : Word} {row : Word × Word} (hrow : row ∈ opcodeRows) (h : inRow w row = true) :
    ∃ i, decode w = .ok i := by
  cases hd : decode w with
  | ok i => exact ⟨i, rfl⟩
  | error e =>
    have hillegal := (illegalWordsAreTheSixGroups w).mp ⟨e, hd⟩
    obtain ⟨hop, hn, hnn⟩ := fields_of_and (beq_iff_eq.mp h)
    obtain ⟨hmask, hfields⟩ := opcodeRows_fix_legal_fields row hrow
    rw [← hop hmask] at hfields
    simp only [List.mem_cons, List.not_mem_nil, or_false, ← opOf_toNat, ← nOf_toNat, ← nnOf_toNat] at hillegal hfields
    obtain hf | ⟨hk, hf⟩ | ⟨hk, hf⟩ | ⟨hk, hf⟩ | ⟨hk, hf⟩ | ⟨hk, hf⟩ := hfields
    · omega
    · rw [← hn hk] at hf; omega
    · rw [← hn hk] at hf; omega
    · rw [← hnn hk] at hf; omega
    · rw [← hnn hk] at hf; omega
    · have hw : w = row.1 := by rw [← beq_iff_eq.mp h, hk, BitVec.and_allOnes]
      have hop0 := opOf_toNat w
      rw [← hw] at hf
      omega

/-- Settles O4: a legal word is in the row of its instruction, and two rows never share a word. -/
theorem legalWordsAreTheOpcodeRows : Obligations.LegalWordsAreTheOpcodeRows := by
  intro w
  refine ⟨⟨fun ⟨i, hi⟩ => ?_, fun ⟨row, hrow, hw⟩ => decode_ok_of_inRow hrow hw⟩, fun i hi k row hk => ?_⟩
  · obtain ⟨row, hrow, hw⟩ := inRow_rowOf hi
    exact ⟨row, List.mem_of_getElem? hrow, hw⟩
  · obtain ⟨row', hrow', hw'⟩ := inRow_rowOf hi
    constructor
    · exact fun hw => eq_of_inRow_of_inRow hk hrow' hw hw'
    · rintro rfl
      rw [hrow'] at hk
      cases hk
      exact hw'

end Sys2Proof

namespace Sys2Proof.Machine

/-! ### Totality (60_exceptions.md section 1) -/

theorem State.withRange_total (s : State) (n : Nat) {act : Result} (h : ∃ t, act = .next t) :
    ∃ t, s.withRange n act = .next t := by
  obtain ⟨-, he⟩ | ⟨-, he⟩ := s.withRange_cases n act
  · rw [he]; exact h
  · exact ⟨_, he⟩

theorem exec_total (i : Instr) (s : State) : ∃ t, exec i s = .next t := by
  cases i
  case ret => simp only [exec, execRet]; split <;> exact ⟨_, rfl⟩
  case call => simp only [exec, execCall]; split <;> exact ⟨_, rfl⟩
  case drw | ldB | stRegs | ldRegs => exact s.withRange_total _ ⟨_, rfl⟩
  -- every other instruction answers one next state from every state
  all_goals exact ⟨_, rfl⟩

theorem State.cpuStep_total (s : State) : ∃ t, s.cpuStep = .next t := by
  unfold State.cpuStep
  split
  · exact ⟨_, rfl⟩
  · split
    · exact ⟨_, rfl⟩
    case h_2 i _ =>
      obtain ⟨t, ht⟩ := exec_total i s
      exact ⟨t.settle, by rw [ht]; rfl⟩

theorem State.perform_total (s : State) (e : Event) : ∃ t, s.perform e = .next t := by
  cases e with
  | cpu =>
    cases hr : s.rs.runsCpu
    · exact ⟨s, State.offerCpu_disabled hr⟩
    · obtain ⟨t, ht⟩ := s.cpuStep_total
      exact ⟨t, (State.offerCpu_enabled hr).trans ht⟩
  | tick => exact ⟨_, rfl⟩
  | keyDown k => exact ⟨_, rfl⟩
  | keyUp k => exact ⟨_, rfl⟩
  | command c => exact ⟨_, rfl⟩

/-- Settles O9: the guarded instructions answer a halted state where their guard fails. -/
theorem everyStepAnswersANextState : Obligations.EveryStepAnswersANextState :=
  ⟨exec_total, fun s => s.afterHead.perform_total s.schedule.next⟩

/-! ### The CPU step in its three cases (R200) -/

theorem State.cpuStep_of_fetch_error {s : State} (h : 0xFFE < s.pc.toNat) :
    s.cpuStep = .next (s.setRs (.halted
      (.addressOutOfRange s.pc (if s.pc.toNat ≤ 0xFFF then s.pc + 1 else s.pc)))) := by
  obtain ⟨hle, -⟩ | ⟨-, hf⟩ := s.fetch_cases
  · omega
  · rw [State.cpuStep, hf]; rfl

theorem State.fetch_of_le {s : State} (h : s.pc.toNat ≤ 0xFFE) : s.fetch = .ok (s.wordAt s.pc.toNat) := by
  obtain ⟨-, hf⟩ | ⟨hlt, -⟩ := s.fetch_cases
  · exact hf
  · omega

theorem State.cpuStep_of_decode_error {s : State} {e : Reject} (h : s.pc.toNat ≤ 0xFFE)
    (he : decode (s.wordAt s.pc.toNat) = .error e) :
    s.cpuStep = .next (s.setRs (.halted (.illegalInstruction s.pc (s.wordAt s.pc.toNat)))) := by
  simp only [State.cpuStep, State.fetch_of_le h, he]
  rfl

theorem State.cpuStep_of_at {s : State} {i : Instr} (h : s.At i) : s.cpuStep = settleResult (exec i s) := by
  obtain ⟨hpc, hi⟩ := h
  simp only [State.cpuStep, State.fetch_of_le hpc, hi]

/-- What a CPU step meets at the `PC`: a fetch above 0xFFF, an illegal word, or an instruction. -/
theorem State.fetch_or_at (s : State) :
    0xFFE < s.pc.toNat ∨ (s.pc.toNat ≤ 0xFFE ∧ ∃ e, decode (s.wordAt s.pc.toNat) = .error e) ∨ ∃ i, s.At i := by
  by_cases h : s.pc.toNat ≤ 0xFFE
  · cases hd : decode (s.wordAt s.pc.toNat) with
    | error e => exact .inr (.inl ⟨h, e, rfl⟩)
    | ok i => exact .inr (.inr ⟨i, h, hd⟩)
  · exact .inl (by omega)

theorem State.At.pc_le {s : State} {i : Instr} (h : s.At i) : s.pc.toNat ≤ 0xFFE := h.1

theorem State.At.unique {s : State} {i j : Instr} (hi : s.At i) (hj : s.At j) : i = j :=
  Except.ok.inj (hi.2.symm.trans hj.2)

/-- The CPU's turn in a run state that enables it. -/
theorem step_cpu {s : State} (hc : s.cpuIsNext) (hr : s.rs = .running ∨ s.rs = .steppingOne) :
    step s = s.afterHead.cpuStep := by
  have henabled : s.afterHead.rs.runsCpu = true := by
    change s.rs.runsCpu = true
    obtain hr | hr := hr <;> rw [hr] <;> rfl
  rw [step_eq, hc]
  exact State.offerCpu_enabled henabled

/-- The lowest address above 0xFFF of a fetch there. -/
theorem fetchFault_toNat {pc : Word} (h : 0xFFE < pc.toNat) :
    (if pc.toNat ≤ 0xFFF then pc + 1 else pc).toNat = if pc.toNat = 0xFFF then 0x1000 else pc.toNat := by
  by_cases hpc : pc.toNat = 0xFFF
  · rw [if_pos (by omega), if_pos hpc, BitVec.toNat_add, hpc]; rfl
  · rw [if_neg (by omega), if_neg hpc]

/-- Settles O6: the three cases of the CPU step, taken at the state with the step off the schedule. -/
theorem stepRunsTheDecodedInstruction : Obligations.StepRunsTheDecodedInstruction := by
  intro s hc hr
  rw [step_cpu hc hr]
  refine ⟨fun hpc => ⟨_, fetchFault_toNat hpc, State.cpuStep_of_fetch_error (s := s.afterHead) hpc⟩,
    fun e hpc he => State.cpuStep_of_decode_error (s := s.afterHead) hpc he, fun i hpc hi => ?_⟩
  obtain ⟨t, ht⟩ := exec_total i s.afterHead
  refine ⟨t, ht, ?_⟩
  rw [State.cpuStep_of_at (s := s.afterHead) ⟨hpc, hi⟩, ht]
  rfl

/-- Settles O8: the CPU's turn is disabled in every other run state. -/
theorem noCpuStepUnlessRunningOrStepping : Obligations.NoCpuStepUnlessRunningOrStepping := by
  intro s hc hrun hstep
  have hdisabled : s.afterHead.rs.runsCpu = false := by
    change s.rs.runsCpu = false
    cases hr : s.rs with
    | running => exact absurd hr hrun
    | steppingOne => exact absurd hr hstep
    | paused => rfl
    | awaitingKey x r => rfl
    | halted f => rfl
  rw [step_eq, hc]
  exact State.offerCpu_disabled hdisabled

/-- Settles O55: the query and the CPU step decode the same word, below 0xFFF. -/
theorem disassemblyAgreesWithExecution : Obligations.DisassemblyAgreesWithExecution := by
  intro s hc hr
  rw [step_cpu hc hr]
  unfold State.disassemble
  by_cases hpc : s.pc.toNat ≤ 0xFFE
  · rw [if_pos hpc]
    refine ⟨fun i hi => ?_, fun e he => ?_, fun hnone => nomatch hnone⟩
    · exact State.cpuStep_of_at (s := s.afterHead) ⟨hpc, Option.some.inj hi⟩
    · exact ⟨_, _, State.cpuStep_of_decode_error (s := s.afterHead) hpc (Option.some.inj he), rfl⟩
  · rw [if_neg hpc]
    refine ⟨fun i hi => (nomatch hi), fun e he => (nomatch he), fun _ => ?_⟩
    exact ⟨_, _, State.cpuStep_of_fetch_error (s := s.afterHead) (Nat.lt_of_not_le hpc), rfl⟩

/-! ### The self-jump (R265) -/

theorem State.settle_of_ne {s : State} (h : s.rs ≠ .steppingOne) : s.settle = s := if_neg h

theorem decode_jp_word {a : Nat} (ha : a ≤ 0xFFF) : decode (BitVec.ofNat 16 (0x1000 + a)) = .ok (.jp (BitVec.ofNat 12 a)) := by
  have hword : BitVec.ofNat 16 (0x1000 + a) = encode (.jp (BitVec.ofNat 12 a)) := by
    apply BitVec.eq_of_toNat_eq
    rw [encode, encodeNNN_toNat, BitVec.toNat_ofNat, BitVec.toNat_ofNat]
    simp only [BitVec.reduceToNat]
    omega
  rw [hword, decode_encode]

/-- Settles O57: the word of a self-jump decodes to a JP to the `PC`, which writes what the `PC` holds. -/
theorem selfJumpChangesNothing : Obligations.SelfJumpChangesNothing := by
  intro s ⟨hrun, hpc, hword⟩ hc
  have hat : s.afterHead.At (.jp (BitVec.ofNat 12 s.pc.toNat)) :=
    ⟨hpc, (congrArg decode hword).trans (decode_jp_word (by omega))⟩
  have hzext : zextAddr (BitVec.ofNat 12 s.pc.toNat) = s.pc := by
    apply BitVec.eq_of_toNat_eq
    rw [zextAddr_toNat, BitVec.toNat_ofNat]
    omega
  rw [step_cpu hc (.inl hrun), State.cpuStep_of_at hat]
  change Host.Outcome.next ((s.afterHead.setPc (zextAddr (BitVec.ofNat 12 s.pc.toNat))).settle) = _
  rw [hzext, State.settle_of_ne (by rw [State.setPc_rs, State.afterHead, State.setSchedule_rs, hrun]; decide)]
  rfl

end Sys2Proof.Machine

namespace Sys2Proof.Machine

/-! ### The fault of an instruction and of a CPU step (R201 to R206), computed -/

/-- The fault of a range check (R58). -/
def State.rangeFault (s : State) (n : Nat) : Option CoreFault :=
  if s.rangeOk n then none else some (.addressOutOfRange s.pc s.lowestOffending)

/-- The fault that an instruction raises, if it raises one. -/
def State.instrFault (s : State) (i : Instr) : Option CoreFault :=
  match i with
  | .ret => if s.stackEmpty then some (.stackUnderflow s.pc) else none
  | .call _ => if s.stackFull then some (.stackOverflow s.pc) else none
  | .drw _ _ n => s.rangeFault n.toNat
  | .ldB _ => s.rangeFault 3
  | .stRegs x => s.rangeFault (x.val + 1)
  | .ldRegs x => s.rangeFault (x.val + 1)
  | _ => none

/-- What an instruction can do to the run state: halt with its fault and change nothing else, enter the wait of FX0A, or
leave it. -/
theorem exec_next_cases {i : Instr} {s t : State} (h : exec i s = .next t) :
    (∃ f, s.instrFault i = some f ∧ t = s.setRs (.halted f)) ∨
    (s.instrFault i = none ∧ ∃ x, i = .ldVxK x ∧ t = s.setRs (.awaitingKey x s.resumeTarget)) ∨
    (s.instrFault i = none ∧ (∀ x, i ≠ .ldVxK x) ∧ t.rs = s.rs) := by
  cases i
  case ldVxK x => exact .inr (.inl ⟨rfl, x, rfl, (Host.Outcome.next.inj h).symm⟩)
  case ret =>
    obtain ⟨he, rfl⟩ | ⟨he, rfl⟩ := execRet_next h
    · exact .inl ⟨_, if_pos he, rfl⟩
    · exact .inr (.inr ⟨by simp [State.instrFault, he], by simp, by simp⟩)
  case call =>
    obtain ⟨hf, rfl⟩ | ⟨hf, rfl⟩ := execCall_next h
    · exact .inl ⟨_, if_pos hf, rfl⟩
    · exact .inr (.inr ⟨by simp [State.instrFault, hf], by simp, by simp⟩)
  case drw | ldB | stRegs | ldRegs =>
    obtain ⟨hr, h⟩ | ⟨hr, rfl⟩ := State.withRange_next h
    · cases h; exact .inr (.inr ⟨if_pos hr, by simp, by simp⟩)
    · exact .inl ⟨_, by simp [State.instrFault, State.rangeFault, hr], rfl⟩
  all_goals cases h; exact .inr (.inr ⟨rfl, by simp, by simp⟩)

theorem State.rangeFault_eq_some_iff {s : State} {n : Nat} {f : CoreFault} :
    s.rangeFault n = some f ↔
      (0 < n ∧ 0xFFF < s.index.toNat + n - 1) ∧ f = .addressOutOfRange s.pc s.lowestOffending := by
  have hr := s.rangeOk_iff n
  unfold State.rangeFault
  cases h : s.rangeOk n <;> simp only [h, Bool.false_eq_true, if_true, if_false, false_iff, true_iff] at hr ⊢
  · have : 0 < n ∧ 0xFFF < s.index.toNat + n - 1 := by omega
    simp [this, eq_comm]
  · simp only [reduceCtorEq, false_iff, not_and]
    omega

theorem State.lowestOffending_eq_iff {s : State} {addr : Word} :
    addr.toNat = max s.index.toNat 0x1000 ↔ addr = s.lowestOffending := by
  rw [← State.lowestOffending_toNat, BitVec.toNat_inj]

/-- A fault stands at an instruction exactly when the instruction raises it. -/
theorem State.raises_iff_of_at {s : State} {i : Instr} (h : s.At i) (f : CoreFault) :
    s.Raises f ↔ s.instrFault i = some f := by
  have hat : ∀ j, s.At j ↔ j = i := fun j => ⟨fun hj => hj.unique h, fun hj => hj ▸ h⟩
  have hlegal : ∀ e, decode (s.wordAt s.pc.toNat) ≠ .error e := fun e he => nomatch h.2.symm.trans he
  have hfetch : ∀ addr, ¬ s.FetchOutOfRange addr := fun addr hf => absurd hf.1 (Nat.not_lt_of_le h.pc_le)
  have hsp : s.stackFull = true ↔ s.sp.val = 16 := beq_iff_eq
  have hsp0 : s.stackEmpty = true ↔ s.sp.val = 0 := beq_iff_eq
  cases f with
  | illegalInstruction a w =>
    have hraises : ¬ s.Raises (.illegalInstruction a w) := fun ⟨_, _, hw, e, he⟩ => hlegal e (hw ▸ he)
    cases i <;> simp [hraises, State.instrFault, State.rangeFault_eq_some_iff]
  | stackOverflow a =>
    simp only [State.Raises, hat]
    cases i
    case call => simp [State.instrFault, hsp, and_comm, eq_comm (a := a)]
    all_goals simp [State.instrFault, State.rangeFault_eq_some_iff]
  | stackUnderflow a =>
    simp only [State.Raises, hat]
    cases i
    case ret => simp [State.instrFault, hsp0, and_comm, eq_comm (a := a)]
    all_goals simp [State.instrFault, State.rangeFault_eq_some_iff]
  | addressOutOfRange a addr =>
    simp only [State.Raises, hfetch, false_or, State.DataOutOfRange, State.lowestOffending_eq_iff, hat]
    cases i
    case drw | ldB | stRegs | ldRegs =>
      simp only [State.instrFault, State.rangeFault_eq_some_iff]
      simp
      tauto
    all_goals simp [State.instrFault]

theorem State.fetchOutOfRange_iff {s : State} (h : 0xFFE < s.pc.toNat) (addr : Word) :
    s.FetchOutOfRange addr ↔ addr = if s.pc.toNat ≤ 0xFFF then s.pc + 1 else s.pc := by
  unfold State.FetchOutOfRange
  rw [← fetchFault_toNat h, BitVec.toNat_inj]
  exact and_iff_right h

theorem State.raises_iff_of_fetch {s : State} (h : 0xFFE < s.pc.toNat) (f : CoreFault) :
    s.Raises f ↔ f = .addressOutOfRange s.pc (if s.pc.toNat ≤ 0xFFF then s.pc + 1 else s.pc) := by
  have hat : ∀ i, ¬ s.At i := fun i hi => absurd hi.pc_le (Nat.not_le_of_lt h)
  cases f with
  | illegalInstruction a w => simp only [State.Raises, reduceCtorEq, iff_false]; omega
  | stackOverflow a => simp [State.Raises, hat]
  | stackUnderflow a => simp [State.Raises, hat]
  | addressOutOfRange a addr => simp [State.Raises, State.DataOutOfRange, hat, State.fetchOutOfRange_iff h]

theorem State.raises_iff_of_illegal {s : State} {e : Reject} (h : s.pc.toNat ≤ 0xFFE)
    (he : decode (s.wordAt s.pc.toNat) = .error e) (f : CoreFault) :
    s.Raises f ↔ f = .illegalInstruction s.pc (s.wordAt s.pc.toNat) := by
  have hat : ∀ i, ¬ s.At i := fun i hi => nomatch he.symm.trans hi.2
  have hfetch : ∀ addr, ¬ s.FetchOutOfRange addr := fun addr hf => absurd hf.1 (Nat.not_lt_of_le h)
  cases f with
  | illegalInstruction a w =>
    rw [CoreFault.illegalInstruction.injEq]
    exact ⟨fun ⟨ha, _, hw, _⟩ => ⟨ha, hw⟩, fun ⟨ha, hw⟩ => ⟨ha, h, hw, e, hw ▸ he⟩⟩
  | stackOverflow a => simp [State.Raises, hat]
  | stackUnderflow a => simp [State.Raises, hat]
  | addressOutOfRange a addr => simp [State.Raises, State.DataOutOfRange, hat, hfetch]

/-- What a CPU step can do to the run state: halt with the fault that stands at the `PC` and change nothing else, or, where
none stands, execute the instruction there, which enters the wait of FX0A or leaves the run state to the settling. -/
theorem State.cpuStep_cases {s t : State} (h : s.cpuStep = .next t) :
    (∃ f, (∀ g, s.Raises g ↔ g = f) ∧ t = s.setRs (.halted f)) ∨
    ((∀ g, ¬ s.Raises g) ∧ ∃ x, s.At (.ldVxK x) ∧ t = s.setRs (.awaitingKey x s.resumeTarget)) ∨
    ((∀ g, ¬ s.Raises g) ∧ ∃ i u, s.At i ∧ (∀ x, i ≠ .ldVxK x) ∧ exec i s = .next u ∧ u.rs = s.rs ∧ t = u.settle) := by
  obtain hpc | ⟨hpc, e, he⟩ | ⟨i, hi⟩ := s.fetch_or_at
  · rw [State.cpuStep_of_fetch_error hpc] at h
    exact .inl ⟨_, State.raises_iff_of_fetch hpc, (Host.Outcome.next.inj h).symm⟩
  · rw [State.cpuStep_of_decode_error hpc he] at h
    exact .inl ⟨_, State.raises_iff_of_illegal hpc he, (Host.Outcome.next.inj h).symm⟩
  · rw [State.cpuStep_of_at hi] at h
    obtain ⟨u, hu, rfl⟩ := settleResult_next.mp h
    have hnone : s.instrFault i = none → ∀ g, ¬ s.Raises g := fun hf g hg => by
      rw [State.raises_iff_of_at hi, hf] at hg; cases hg
    obtain ⟨f, hf, rfl⟩ | ⟨hf, x, rfl, rfl⟩ | ⟨hf, hx, hrs⟩ := exec_next_cases hu
    · refine .inl ⟨f, fun g => ?_, State.settle_of_ne (by simp)⟩
      rw [State.raises_iff_of_at hi, hf, Option.some_inj, eq_comm]
    · exact .inr (.inl ⟨hnone hf, x, hi, State.settle_of_ne (by simp)⟩)
    · exact .inr (.inr ⟨hnone hf, i, u, hi, hx, hu, hrs, rfl⟩)

/-! ### What the fetch, the faults and the stack depend on -/

/-- Equal in everything that the control flow depends on: two such states differ in no instruction, fault or return. -/
def SameControl (s t : State) : Prop :=
  t.pc = s.pc ∧ t.sp = s.sp ∧ t.stack = s.stack ∧ t.index = s.index ∧ t.mem = s.mem ∧ t.config = s.config

theorem State.setRs_sameControl (s : State) (r : RunState) : SameControl s (s.setRs r) := by simp [SameControl]

theorem State.setKey_sameControl (s : State) (k : Key) (b : Bool) : SameControl s (s.setKey k b) := by simp [SameControl]

theorem State.tick_sameControl (s : State) : SameControl s s.tick := by simp [SameControl]

theorem State.afterHead_sameControl (s : State) : SameControl s s.afterHead := by simp [SameControl, State.afterHead]

theorem SameControl.byteAt {s t : State} (h : SameControl s t) (a : Nat) : t.byteAt a = s.byteAt a := by
  obtain ⟨-, -, -, -, hmem, hconfig⟩ := h
  exact State.byteAt_congr hconfig hmem a

theorem SameControl.at_iff {s t : State} (h : SameControl s t) (i : Instr) : t.At i ↔ s.At i := by
  have hbyte := h.byteAt
  obtain ⟨hpc, -⟩ := h
  simp only [State.At, State.wordAt, hpc, hbyte]

theorem SameControl.raises_iff {s t : State} (h : SameControl s t) (f : CoreFault) : t.Raises f ↔ s.Raises f := by
  have hbyte := h.byteAt
  have hat := h.at_iff
  obtain ⟨hpc, hsp, -, hindex, -, -⟩ := h
  cases f with
  | illegalInstruction a w => simp only [State.Raises, State.wordAt, hpc, hbyte]
  | stackOverflow a => simp only [State.Raises, hpc, hsp, hat]
  | stackUnderflow a => simp only [State.Raises, hpc, hsp, hat]
  | addressOutOfRange a addr =>
    simp only [State.Raises, State.FetchOutOfRange, State.DataOutOfRange, hpc, hindex, hat]

theorem State.settle_rs (s : State) : s.settle.rs = if s.rs = .steppingOne then .paused else s.rs := by
  unfold State.settle
  split <;> simp [*]

/-- Settles O7, by the three things that a CPU step can do to the run state. -/
theorem cpuStepRunStateTransitions : Obligations.CpuStepRunStateTransitions := by
  intro s t hc hr h
  rw [step_cpu hc hr] at h
  have hraises := s.afterHead_sameControl.raises_iff
  have hat := s.afterHead_sameControl.at_iff
  have hrs : s.afterHead.rs = s.rs := rfl
  simp only [← hraises, ← hat, ← hrs]
  obtain ⟨f, hf, rfl⟩ | ⟨hf, x, hx, rfl⟩ | ⟨hf, i, u, hi, hx, -, hu, rfl⟩ := State.cpuStep_cases h
  · refine ⟨fun g hg => ?_, fun x hx => ?_, fun hno => absurd ((hf f).mpr rfl) (hno f)⟩
    · rw [(hf g).mp hg]; rfl
    · exact nomatch (State.raises_iff_of_at hx f).mp ((hf f).mpr rfl)
  · refine ⟨fun g hg => absurd hg (hf g), fun y hy => ?_, fun _ hno => absurd hx (hno x)⟩
    cases hx.unique hy
    exact ⟨fun hrun => by simp [State.resumeTarget, hrun], fun hstep => by simp [State.resumeTarget, hstep]⟩
  · refine ⟨fun g hg => absurd hg (hf g), fun y hy => absurd (hi.unique hy) (hx y), fun _ _ => ?_⟩
    rw [State.settle_rs, hu]
    exact ⟨fun hrun => by simp [hrun], fun hstep => by simp [hstep]⟩

/-! ### The steps of the timer and of the host, as writes -/

theorem State.setRs_self {s : State} {r : RunState} (h : s.rs = r) : s.setRs r = s := by
  subst h; rfl

/-- The run state after a command other than `restart`: the table of R227. -/
def Command.runState (c : Command) (r : RunState) : RunState :=
  match c, r with
  | .pause, .running => .paused
  | .pause, .awaitingKey _ _ => .paused
  | .play, .paused => .running
  | .single, .paused => .steppingOne
  | _, r => r

theorem State.command_eq (s : State) {c : Command} (hc : c ≠ .restart) : s.command c = s.setRs (c.runState s.rs) := by
  cases c with
  | restart => exact absurd rfl hc
  | pause => unfold State.command State.pause; cases h : s.rs <;> simp [Command.runState, State.setRs_self h]
  | play => unfold State.command State.play; cases h : s.rs <;> simp [Command.runState, State.setRs_self h]
  | single => unfold State.command State.single; cases h : s.rs <;> simp [Command.runState, State.setRs_self h]

/-- A command other than `restart` enters no wait and no halt. -/
theorem Command.runState_cases (c : Command) (r : RunState) :
    c.runState r = r ∨ c.runState r = .running ∨ c.runState r = .paused ∨ c.runState r = .steppingOne := by
  unfold Command.runState
  split <;> simp

theorem State.keyDown_of_ne {s : State} (h : ∀ x r, s.rs ≠ .awaitingKey x r) (k : Key) : s.keyDown k = s.setKey k true := by
  unfold State.keyDown
  split
  case h_1 x r hr => exact absurd hr (h x r)
  all_goals rfl

theorem State.keyDown_of_awaitingKey {s : State} {x : Reg} {r : Resume} (h : s.rs = .awaitingKey x r) (k : Key) :
    s.keyDown k = (s.setKey k true).completeWait x r k := by
  unfold State.keyDown
  rw [h]

/-- Inversion of a step of the timer or of the host: a tick, a key write, the completion of a wait, a command's write of
the run state, or `restart`. -/
theorem State.perform_next_cases {s t : State} {e : Event} (he : e ≠ .cpu) (h : s.perform e = .next t) :
    t = s.tick ∨ (∃ k b, t = s.setKey k b) ∨
    (∃ k x r, e = .keyDown k ∧ s.rs = .awaitingKey x r ∧ t = (s.setKey k true).completeWait x r k) ∨
    (∃ c, e = .command c ∧ t = s.setRs (c.runState s.rs)) ∨ (e = .command .restart ∧ t = s.restart) := by
  cases e with
  | cpu => exact absurd rfl he
  | tick => exact .inl (Host.Outcome.next.inj h).symm
  | keyUp k => exact .inr (.inl ⟨k, false, (Host.Outcome.next.inj h).symm⟩)
  | keyDown k =>
    have ht := (Host.Outcome.next.inj h).symm
    by_cases hw : ∃ x r, s.rs = .awaitingKey x r
    · obtain ⟨x, r, hr⟩ := hw
      exact .inr (.inr (.inl ⟨k, x, r, rfl, hr, ht.trans (State.keyDown_of_awaitingKey hr k)⟩))
    · exact .inr (.inl ⟨k, true, ht.trans (State.keyDown_of_ne (fun x r hr => hw ⟨x, r, hr⟩) k)⟩)
  | command c =>
    have ht := (Host.Outcome.next.inj h).symm
    by_cases hc : c = .restart
    · subst hc
      exact .inr (.inr (.inr (.inr ⟨rfl, ht⟩)))
    · exact .inr (.inr (.inr (.inl ⟨c, rfl, ht.trans (s.command_eq hc)⟩)))

theorem Resume.runState_cases (r : Resume) : r.runState = .running ∨ r.runState = .paused := by
  cases r <;> simp [Resume.runState]

theorem State.completeWait_rs (s : State) (x : Reg) (r : Resume) (k : Key) : (s.completeWait x r k).rs = r.runState := rfl

theorem RunState.runsCpu_iff (r : RunState) : r.runsCpu = true ↔ r = .running ∨ r = .steppingOne := by
  cases r <;> simp [RunState.runsCpu]

/-! ### Faults are precise (R205) -/

/-- A CPU step that halts the machine has only written the run state. -/
theorem State.eq_setRs_of_cpuStep_halted {s t : State} {f : CoreFault} (hs : s.rs.runsCpu = true)
    (h : s.cpuStep = .next t) (ht : t.rs = .halted f) : t = s.setRs (.halted f) := by
  obtain ⟨g, -, rfl⟩ | ⟨-, x, -, rfl⟩ | ⟨-, i, u, -, -, -, hu, rfl⟩ := State.cpuStep_cases h
  · cases ht; rfl
  · cases ht
  · rw [State.settle_rs, hu] at ht
    obtain hs | hs := (RunState.runsCpu_iff _).mp hs <;> simp [hs] at ht

/-- A step of the timer or of the host halts no machine. -/
theorem State.rs_of_perform_halted {s t : State} {e : Event} {f : CoreFault} (he : e ≠ .cpu) (h : s.perform e = .next t)
    (ht : t.rs = .halted f) : s.rs = .halted f := by
  obtain rfl | ⟨k, b, rfl⟩ | ⟨k, x, r, -, -, rfl⟩ | ⟨c, -, rfl⟩ | ⟨-, rfl⟩ := State.perform_next_cases he h
  · exact s.tick_rs ▸ ht
  · exact ht
  · obtain hr | hr := r.runState_cases <;> simp [State.completeWait_rs, hr] at ht
  · obtain hr | hr | hr | hr := c.runState_cases s.rs <;> simp only [State.setRs_rs, hr, reduceCtorEq] at ht
    exact ht
  · cases ht

/-- Settles O10: only a CPU step can halt, and one that does only writes the run state. -/
theorem faultsArePrecise : Obligations.FaultsArePrecise := by
  intro s t f h ht hs
  have hnot : ∀ g, s.afterHead.rs ≠ .halted g := hs
  rw [step_eq] at h
  by_cases he : s.schedule.next = .cpu
  · rw [he] at h
    obtain ⟨hr, h⟩ | ⟨-, rfl⟩ := State.offerCpu_next h
    · exact ⟨he, State.eq_setRs_of_cpuStep_halted hr h ht⟩
    · exact absurd ht (hnot f)
  · exact absurd (State.rs_of_perform_halted he h ht) (hnot f)

/-! ### The wait (R236) -/

/-- Inversion of a step in the wait that does not end it. -/
theorem State.perform_next_of_awaitingKey {s t : State} {e : Event} {x : Reg} {r : Resume} (hs : s.rs = .awaitingKey x r)
    (hkey : ∀ k, e ≠ .keyDown k) (hpause : e ≠ .command .pause) (hrestart : e ≠ .command .restart)
    (h : s.perform e = .next t) : t = s ∨ t = s.tick ∨ ∃ k b, t = s.setKey k b := by
  by_cases he : e = .cpu
  · subst he
    obtain ⟨hr, -⟩ | ⟨-, rfl⟩ := State.offerCpu_next h
    · rw [hs] at hr; cases hr
    · exact .inl rfl
  · obtain ht | ht | ⟨k, y, q, hk, -⟩ | ⟨c, rfl, rfl⟩ | ⟨hc, -⟩ := State.perform_next_cases he h
    · exact .inr (.inl ht)
    · exact .inr (.inr ht)
    · exact absurd hk (hkey k)
    · have hkept : c.runState s.rs = s.rs := by
        rw [hs]
        cases c with
        | pause => exact absurd rfl hpause
        | restart | play | single => rfl
      exact .inl (State.setRs_self hkept.symm)
    · exact absurd hc hrestart

/-- Settles O12: in the wait a tick writes only the timers, a key-up only the keypad, and the rest does nothing. -/
theorem waitIsLeftOnlyByKeyDownPauseRestart : Obligations.WaitIsLeftOnlyByKeyDownPauseRestart := by
  intro s t x r hs h hkey hpause hrestart
  have hhead : s.afterHead.rs = .awaitingKey x r := hs
  have hframe : SameExcept [.dt, .st, .keys, .schedule] s s.afterHead := (SameExcept.refl _ s).afterHead (by decide)
  rw [step_eq] at h
  obtain rfl | rfl | ⟨k, b, rfl⟩ := State.perform_next_of_awaitingKey hhead hkey hpause hrestart h
  · exact ⟨hhead, hframe⟩
  · exact ⟨by rw [State.tick_rs, hhead], hframe.tick (by decide) (by decide)⟩
  · exact ⟨by rw [State.setKey_rs, hhead], hframe.setKey (by decide) k b⟩

/-! ### What no instruction but its own changes (R21, R53, R66, R105) -/

/-- Settles O43: what the other instructions answer is made by operations that leave the store alone. -/
theorem separateStoresChangeOnlyUnderTheirInstructions :
    Obligations.SeparateStoresChangeOnlyUnderTheirInstructions := by
  intro i s t h
  cases i
  case ret => obtain ⟨-, rfl⟩ | ⟨-, rfl⟩ := execRet_next h <;> simp
  case call => obtain ⟨-, rfl⟩ | ⟨-, rfl⟩ := execCall_next h <;> simp
  case drw | ldB | stRegs | ldRegs =>
    obtain ⟨-, h⟩ | ⟨-, rfl⟩ := State.withRange_next h
    · cases h; simp
    · simp
  -- every other instruction answers one next state from every state
  all_goals cases h; simp

theorem State.registerBlock_length (s : State) (x : Reg) : (s.registerBlock x).length = x.val + 1 := by
  simp only [State.registerBlock, List.length_take, Vector.length_toList]
  omega

theorem decimalDigits_length (b : Byte) : (decimalDigits b).length = 3 := rfl

/-- What an instruction can do to the memory (R53): nothing, or FX33's or FX55's store of its bytes at `I`. -/
theorem exec_mem {i : Instr} {s t : State} (h : exec i s = .next t) :
    t.mem = s.mem ∨ ∃ bs : List Byte, t.mem = (s.storeBytes s.index.toNat bs).mem ∧
      s.index.toNat + bs.length ≤ 4096 ∧
      ((∃ x, i = .ldB x ∧ bs.length = 3) ∨ ∃ x : Reg, i = .stRegs x ∧ bs.length = x.val + 1) := by
  cases i
  case ret => obtain ⟨-, rfl⟩ | ⟨-, rfl⟩ := execRet_next h <;> simp
  case call => obtain ⟨-, rfl⟩ | ⟨-, rfl⟩ := execCall_next h <;> simp
  case ldB x =>
    obtain ⟨hr, h⟩ | ⟨-, rfl⟩ := State.withRange_next h
    · cases h
      obtain h0 | hle := (s.rangeOk_iff _).mp hr
      · cases h0
      · exact .inr ⟨_, rfl, hle, .inl ⟨x, rfl, decimalDigits_length _⟩⟩
    · exact .inl rfl
  case stRegs x =>
    obtain ⟨hr, h⟩ | ⟨-, rfl⟩ := State.withRange_next h
    · cases h
      have hlen := s.registerBlock_length x
      obtain h0 | hle := (s.rangeOk_iff _).mp hr
      · cases h0
      · exact .inr ⟨_, rfl, by omega, .inr ⟨x, rfl, hlen⟩⟩
    · exact .inl rfl
  case drw | ldRegs =>
    obtain ⟨-, h⟩ | ⟨-, rfl⟩ := State.withRange_next h
    · cases h; simp
    · simp
  all_goals cases h; simp

/-- Settles O44: a byte outside the stored ones reads as before. -/
theorem onlyBcdAndBlockStoreWriteMemory : Obligations.OnlyBcdAndBlockStoreWriteMemory := by
  intro i s t a h hne
  obtain hmem | ⟨bs, hmem, hle, hi⟩ := exec_mem h
  · exact absurd (State.byteAt_congr (exec_config h) hmem a) hne
  · have hread : t.byteAt a = (s.storeBytes s.index.toNat bs).byteAt a :=
      State.byteAt_congr (s := s.storeBytes s.index.toNat bs) (show t.config = s.config from exec_config h) hmem a
    have hinside : s.index.toNat ≤ a ∧ a < s.index.toNat + bs.length := by
      by_contra hout
      exact hne (hread.trans (s.byteAt_storeBytes_outside _ bs (by omega)))
    refine ⟨by omega, hinside.1, ?_⟩
    obtain ⟨x, rfl, hlen⟩ | ⟨x, rfl, hlen⟩ := hi
    · exact .inl ⟨x, rfl, by omega⟩
    · exact .inr ⟨x, rfl, by omega⟩

/-- A register other than the written one keeps its value. -/
theorem eq_of_readV_setV_ne {s : State} {x j : Reg} {b : Byte} (h : (s.setV x b).readV j ≠ s.readV j) : x = j := by
  by_contra hne
  exact h (s.readV_setV_other b (Ne.symm hne))

theorem State.readV_loadRegisterBlock (s : State) (x k : Reg) :
    (s.loadRegisterBlock x).readV k = if k ≤ x then s.byteAt (s.index.toNat + k.val) else s.readV k := by
  simp [State.readV]

/-- Settles O42: an instruction that is no flag writer changes `VF` only where it writes it as `V[x]`. -/
theorem onlyFlagWritersChangeVF : Obligations.OnlyFlagWritersChangeVF := by
  intro i s t h hne
  cases i
  case addReg | subReg | subnReg | shr | shl | drw => simp
  case ldImm x _ | addImm x _ | ldReg x _ | orReg x _ | andReg x _ | xorReg x _ | ldVxDT x =>
    cases h
    obtain rfl : x = 15 := eq_of_readV_setV_ne hne
    simp
  case rnd x _ =>
    cases h
    obtain rfl : x = 15 := eq_of_readV_setV_ne (s := s.countDraw) hne
    simp
  case ldRegs x =>
    obtain ⟨-, h⟩ | ⟨-, rfl⟩ := State.withRange_next h
    · cases h
      obtain rfl : x = 15 := by
        by_contra hx
        exact hne ((s.readV_loadRegisterBlock x 15).trans (if_neg (mt Fin.last_le_iff.mp hx)))
      simp
    · exact absurd rfl hne
  case ldB | stRegs =>
    obtain ⟨-, h⟩ | ⟨-, rfl⟩ := State.withRange_next h
    · cases h; exact absurd rfl hne
    · exact absurd rfl hne
  case ret => obtain ⟨-, rfl⟩ | ⟨-, rfl⟩ := execRet_next h <;> exact absurd rfl hne
  case call => obtain ⟨-, rfl⟩ | ⟨-, rfl⟩ := execCall_next h <;> simp [State.readV] at hne
  -- the others write no register
  all_goals cases h; simp [State.readV] at hne

end Sys2Proof.Machine

namespace Sys2Proof.Machine

/-! ### The memory's canonical form under every step (log 6) -/

theorem exec_memoryCanonical {i : Instr} {s t : State} (hs : s.MemoryCanonical) (h : exec i s = .next t) :
    t.MemoryCanonical := by
  unfold State.MemoryCanonical at hs ⊢
  rw [exec_config h]
  obtain hmem | ⟨bs, hmem, hle, -⟩ := exec_mem h
  · rw [hmem]; exact hs
  · rw [hmem]; exact State.storeBytes_wf _ bs hs hle

theorem State.cpuStep_memoryCanonical {s t : State} (hs : s.MemoryCanonical) (h : s.cpuStep = .next t) :
    t.MemoryCanonical := by
  obtain ⟨f, -, rfl⟩ | ⟨w, e, -, -, rfl⟩ | ⟨w, i, u, -, -, hu, rfl⟩ := State.cpuStep_next h
  · exact hs
  · exact hs
  · have hmem : u.MemoryCanonical := exec_memoryCanonical hs hu
    simpa [State.MemoryCanonical] using hmem

theorem State.perform_memoryCanonical {s t : State} {e : Event} (hs : s.MemoryCanonical) (h : s.perform e = .next t) :
    t.MemoryCanonical := by
  by_cases he : e = .cpu
  · subst he
    obtain ⟨-, h⟩ | ⟨-, rfl⟩ := State.offerCpu_next h
    · exact State.cpuStep_memoryCanonical hs h
    · exact hs
  · obtain rfl | ⟨k, b, rfl⟩ | ⟨k, x, r, -, -, rfl⟩ | ⟨c, -, rfl⟩ | ⟨-, rfl⟩ := State.perform_next_cases he h
    · simpa [State.MemoryCanonical] using hs
    · exact hs
    · exact hs
    · exact hs
    · exact Memory.wf_nil

/-- Settles O59: stores stay below 4096, the other steps write no memory, and `restart` empties the list. -/
theorem everyStepKeepsTheMemoryCanonical : Obligations.EveryStepKeepsTheMemoryCanonical := by
  intro s t hs h
  rw [step_eq] at h
  exact State.perform_memoryCanonical (s := s.afterHead) hs h

/-! ### Bounded control flow -/

/-- Where an instruction can lead: nowhere, on, past the next one, to an address of an operand, or back to a caller. -/
theorem exec_pc {i : Instr} {s t : State} (h : exec i s = .next t) :
    t.pc = s.pc ∨ t.pc = s.pc + 2 ∨ t.pc = s.pc + 4 ∨ (∃ nnn, t.pc = zextAddr nnn) ∨
    (∃ nnn b, t.pc = zextAddr nnn + zextByte b) ∨ (s.stackEmpty = false ∧ t.pc = s.top) := by
  cases i
  case jp nnn => cases h; exact .inr (.inr (.inr (.inl ⟨nnn, rfl⟩)))
  case jpOffset nnn => cases h; exact .inr (.inr (.inr (.inr (.inl ⟨nnn, _, rfl⟩))))
  case ret =>
    obtain ⟨-, rfl⟩ | ⟨he, rfl⟩ := execRet_next h
    · exact .inl rfl
    · exact .inr (.inr (.inr (.inr (.inr ⟨he, rfl⟩))))
  case call nnn =>
    obtain ⟨-, rfl⟩ | ⟨-, rfl⟩ := execCall_next h
    · exact .inl rfl
    · exact .inr (.inr (.inr (.inl ⟨nnn, rfl⟩)))
  case drw | ldB | stRegs | ldRegs =>
    obtain ⟨-, h⟩ | ⟨-, rfl⟩ := State.withRange_next h
    · cases h; exact .inr (.inl rfl)
    · exact .inl rfl
  case seImm | sneImm | seReg | sneReg | skp | sknp =>
    cases h
    rw [State.skipIf_pc]
    split
    · exact .inr (.inr (.inl rfl))
    · exact .inr (.inl rfl)
  case ldVxK => cases h; exact .inl rfl
  all_goals cases h; exact .inr (.inl rfl)

theorem zextByte_toNat (b : Byte) : (zextByte b).toNat = b.toNat := BitVec.toNat_setWidth_of_le (by decide)

theorem State.top_le {s : State} (h : s.ReturnsBounded) (he : s.stackEmpty = false) : s.top.toNat ≤ 0x1000 := by
  have hpos : s.sp.val ≠ 0 := beq_eq_false_iff_ne.mp he
  exact h ⟨s.sp.val - 1, by omega⟩ (by simp only; omega)

theorem exec_pcBounded {i : Instr} {s t : State} (hpc : s.pc.toNat ≤ 0xFFE) (hr : s.ReturnsBounded)
    (h : exec i s = .next t) : t.PcBounded := by
  unfold State.PcBounded
  obtain ht | ht | ht | ⟨nnn, ht⟩ | ⟨nnn, b, ht⟩ | ⟨he, ht⟩ := exec_pc h <;> rw [ht]
  · omega
  · rw [BitVec.toNat_add]; simp only [BitVec.reduceToNat]; omega
  · rw [BitVec.toNat_add]; simp only [BitVec.reduceToNat]; omega
  · rw [zextAddr_toNat]; omega
  · rw [BitVec.toNat_add, zextAddr_toNat, zextByte_toNat]; omega
  · have := State.top_le hr he; omega

theorem State.push_sp {s : State} (h : s.sp.val < 16) (w : Word) : (s.push w).sp.val = s.sp.val + 1 := by
  rw [State.push_eq h]

theorem State.push_stack {s : State} (h : s.sp.val < 16) (w : Word) (k : Fin 16) :
    (s.push w).stack[k] = if k.val = s.sp.val then w else s.stack[k] := by
  rw [State.push_eq h]
  simp [Vector.getElem_set, eq_comm]

theorem exec_returnsBounded {i : Instr} {s t : State} (hpc : s.pc.toNat ≤ 0xFFE) (hr : s.ReturnsBounded)
    (h : exec i s = .next t) : t.ReturnsBounded := by
  by_cases hcall : ∃ nnn, i = .call nnn
  · obtain ⟨nnn, rfl⟩ := hcall
    obtain ⟨-, rfl⟩ | ⟨hf, rfl⟩ := execCall_next h
    · exact hr
    · have hlt : s.sp.val < 16 := by have : s.sp.val ≠ 16 := beq_eq_false_iff_ne.mp hf; omega
      intro k hk
      rw [State.setPc_sp, State.push_sp hlt] at hk
      simp only [State.setPc_stack]
      rw [State.push_stack hlt]
      split
      · rw [State.next, BitVec.toNat_add]; simp only [BitVec.reduceToNat]; omega
      · exact hr k (by omega)
  · obtain ⟨hsp, hstack, -⟩ := separateStoresChangeOnlyUnderTheirInstructions i s t h
    have hstack : t.stack = s.stack := not_not.mp (mt hstack hcall)
    have hsp : t.sp.val ≤ s.sp.val := by
      by_cases heq : t.sp = s.sp
      · rw [heq]
      · obtain rfl : i = .ret := (hsp heq).resolve_right hcall
        obtain ⟨-, rfl⟩ | ⟨-, rfl⟩ := execRet_next h <;> simp
    intro k hk
    simp only [hstack]
    exact hr k (by omega)

/-! ### Coherence under every step -/

theorem State.Coherent.of_sameControl {s t : State} (hs : s.Coherent) (h : SameControl s t)
    (hwait : ∀ x r, t.rs = .awaitingKey x r → s.At (.ldVxK x)) (hfault : ∀ f, t.rs = .halted f → s.Raises f) :
    t.Coherent := by
  obtain ⟨hpc, hret, -, -⟩ := hs
  have hat := h.at_iff
  have hraises := h.raises_iff
  obtain ⟨htpc, htsp, htstack, -⟩ := h
  refine ⟨?_, ?_, fun x r hx => (hat _).mpr (hwait x r hx), fun f hf => (hraises f).mpr (hfault f hf)⟩
  · unfold State.PcBounded; rw [htpc]; exact hpc
  · unfold State.ReturnsBounded; rw [htsp, htstack]; exact hret

theorem State.Coherent.of_rs_eq {s t : State} (hs : s.Coherent) (h : SameControl s t) (hrs : t.rs = s.rs) :
    t.Coherent := by
  have ⟨_, _, hwait, hfault⟩ := hs
  exact hs.of_sameControl h (fun x r hx => hwait x r (hrs ▸ hx)) fun f hf => hfault f (hrs ▸ hf)

/-- After an instruction at the `PC` that enters neither a wait nor a halt, bounds are all that coherence asks. -/
theorem State.coherent_of_bounds {t : State} (hpc : t.PcBounded) (hret : t.ReturnsBounded)
    (hwait : ∀ x r, t.rs ≠ .awaitingKey x r) (hfault : ∀ f, t.rs ≠ .halted f) : t.Coherent :=
  ⟨hpc, hret, fun x r hx => absurd hx (hwait x r), fun f hf => absurd hf (hfault f)⟩

theorem State.cpuStep_coherent {s t : State} (hs : s.Coherent) (hr : s.rs.runsCpu = true) (h : s.cpuStep = .next t) :
    t.Coherent := by
  obtain ⟨f, hf, rfl⟩ | ⟨-, x, hx, rfl⟩ | ⟨-, i, u, hi, -, hu, hrs, rfl⟩ := State.cpuStep_cases h
  · refine hs.of_sameControl (s.setRs_sameControl _) (fun _ _ hx => nomatch hx) fun g hg => (hf g).mpr ?_
    cases hg; rfl
  · refine hs.of_sameControl (s.setRs_sameControl _) (fun y r hy => ?_) (fun _ hf => nomatch hf)
    cases hy; exact hx
  · obtain ⟨-, hret, -, -⟩ := hs
    have hrs : u.settle.rs = .running ∨ u.settle.rs = .paused := by
      rw [State.settle_rs, hrs]
      obtain hr | hr := (RunState.runsCpu_iff _).mp hr <;> simp [hr]
    have hpc : u.settle.PcBounded := by
      unfold State.PcBounded
      rw [State.settle_pc]
      exact exec_pcBounded hi.pc_le hret hu
    have hret : u.settle.ReturnsBounded := by
      simpa [State.ReturnsBounded] using exec_returnsBounded hi.pc_le hret hu
    obtain hrs | hrs := hrs <;> exact State.coherent_of_bounds hpc hret (by simp [hrs]) (by simp [hrs])

/-- The completion of a wait goes past the FX0A at which it stands. -/
theorem State.completeWait_coherent {s : State} (hs : s.Coherent) {x : Reg} {r : Resume} (h : s.rs = .awaitingKey x r)
    (k : Key) : ((s.setKey k true).completeWait x r k).Coherent := by
  obtain ⟨-, hret, hwait, -⟩ := hs
  have hpc : s.pc.toNat ≤ 0xFFE := (hwait x r h).pc_le
  have hbound : (s.pc + 2).toNat ≤ 0x10FE := by
    rw [BitVec.toNat_add]; simp only [BitVec.reduceToNat]; omega
  have hrs : r.runState = .running ∨ r.runState = .paused := r.runState_cases
  refine State.coherent_of_bounds hbound hret (fun y q => ?_) (fun f => ?_) <;> rw [State.completeWait_rs] <;>
    obtain hrs | hrs := hrs <;> simp [hrs]

theorem State.initial_pc_toNat (c : Config) : (State.initial c).pc.toNat = c.loadBase.addr := by
  unfold State.initial
  cases c.loadBase <;> rfl

theorem State.initial_coherent (c : Config) : (State.initial c).Coherent := by
  refine State.coherent_of_bounds ?_ (fun k hk => absurd hk (Nat.not_lt_zero _)) (by simp [State.initial])
    (by simp [State.initial])
  unfold State.PcBounded
  rw [State.initial_pc_toNat]
  cases c.loadBase <;> decide

theorem State.restart_coherent (s : State) : s.restart.Coherent :=
  (State.initial_coherent s.config).of_rs_eq ⟨rfl, rfl, rfl, rfl, rfl, rfl⟩ rfl

theorem State.perform_coherent {s t : State} {e : Event} (hs : s.Coherent) (h : s.perform e = .next t) : t.Coherent := by
  by_cases he : e = .cpu
  · subst he
    obtain ⟨hr, h⟩ | ⟨-, rfl⟩ := State.offerCpu_next h
    · exact State.cpuStep_coherent hs hr h
    · exact hs
  · obtain rfl | ⟨k, b, rfl⟩ | ⟨k, x, r, -, hr, rfl⟩ | ⟨c, -, rfl⟩ | ⟨-, rfl⟩ := State.perform_next_cases he h
    · exact hs.of_rs_eq s.tick_sameControl s.tick_rs
    · exact hs.of_rs_eq (s.setKey_sameControl k b) rfl
    · exact State.completeWait_coherent hs hr k
    · obtain hc | hc := c.runState_cases s.rs
      · exact hs.of_rs_eq (s.setRs_sameControl _) hc
      · refine hs.of_sameControl (s.setRs_sameControl _) (fun x r ht => ?_) (fun f ht => ?_) <;>
          obtain hc | hc | hc := hc <;> simp [hc] at ht
    · exact s.restart_coherent

/-- Settles O58: a CPU step halts or waits only where the cause or the FX0A stands, and the other agents' steps keep what
the control flow depends on, but for the completion of a wait and `restart`. -/
theorem everyStepKeepsCoherence : Obligations.EveryStepKeepsCoherence := by
  intro s t hs h
  rw [step_eq] at h
  exact State.perform_coherent (hs.of_rs_eq s.afterHead_sameControl rfl) h

/-- Settles O60: at construction the stack is empty, the machine runs, and no byte differs from the reset contents. -/
theorem resetIsCoherentAndCanonical : Obligations.ResetIsCoherentAndCanonical :=
  ⟨fun c => ⟨State.initial_coherent c, Memory.wf_nil⟩, State.initial_coherent _, Memory.wf_nil, by decide⟩

end Sys2Proof.Machine

namespace Sys2Proof.Machine

/-! ### Ticks (R211, R213) -/

theorem decrement_toNat (b : Byte) : (decrement b).toNat = b.toNat - 1 := by
  unfold decrement
  split
  case isTrue h => subst h; rfl
  case isFalse h => bv_omega

theorem State.tickEnabled_iff (s : State) :
    s.tickEnabled = true ↔ s.rs ≠ .paused ∨ s.config.timersWhilePaused = true := by
  unfold State.tickEnabled
  cases s.rs <;> simp

theorem State.tick_of_enabled {s : State} (h : s.rs ≠ .paused ∨ s.config.timersWhilePaused = true) :
    s.tick = (s.setDt (decrement s.dt)).setSt (decrement s.st) :=
  if_pos (s.tickEnabled_iff.mpr h)

/-- A step whose turn is a tick's. -/
theorem step_tick {s : State} (h : s.schedule.next = .tick) : step s = .next s.afterHead.tick := by
  rw [step_eq, h]; rfl

/-- An enabled tick in its turn, in a frame that lets it change the timers and the schedule. -/
theorem step_tick_spec {s₀ s : State} (h : s.schedule.next = .tick)
    (hon : s.rs ≠ .paused ∨ s.config.timersWhilePaused = true) (hframe : SameExcept [.dt, .st, .schedule] s₀ s) :
    ∃ t, step s = .next t ∧ t.dt.toNat = s.dt.toNat - 1 ∧ t.st.toNat = s.st.toNat - 1 ∧ t.schedule = s.schedule.rest ∧
      SameExcept [.dt, .st, .schedule] s₀ t := by
  have htick := State.tick_of_enabled (s := s.afterHead) hon
  refine ⟨s.afterHead.tick, step_tick h, ?_, ?_, s.afterHead.tick_schedule,
    (hframe.afterHead (by decide)).tick (by decide) (by decide)⟩ <;> rw [htick]
  · exact decrement_toNat s.dt
  · exact decrement_toNat s.st

/-- Settles O45: the enabled tick decrements both timers. -/
theorem tickCountsBothTimersDown : Obligations.TickCountsBothTimersDown := fun s h hon =>
  step_tick_spec h hon (SameExcept.refl _ s)

/-- Settles O46: the policy disables the tick. -/
theorem noTickWhilePausedWithoutThePolicy : Obligations.NoTickWhilePausedWithoutThePolicy := by
  intro s h hpaused hpolicy
  have hoff : ¬ s.afterHead.tickEnabled = true := by
    rw [State.tickEnabled_iff]
    exact not_or.mpr ⟨not_not.mpr hpaused, by rw [State.afterHead_config, hpolicy]; decide⟩
  rw [step_tick h]
  exact congrArg _ (if_neg hoff)

theorem step_tick_rs_config {s t : State} (h : s.schedule.next = .tick) (ht : step s = .next t) :
    t.rs = s.rs ∧ t.config = s.config := by
  cases (step_tick h).symm.trans ht
  exact ⟨s.afterHead.tick_rs, s.afterHead.tick_config⟩

theorem core_run_succ {M : Host.Core} {n : Nat} {s t : M.State} (h : M.step s = .next t) :
    M.run (n + 1) s = M.run n t := by
  rw [Host.Core.run, h]

/-- Many ticks from a state within the frame. -/
theorem run_ticks_spec (n : Nat) {s₀ s : State} (h : ∀ k, k < n → (s.schedule.ahead k).next = .tick)
    (hon : s.rs ≠ .paused ∨ s.config.timersWhilePaused = true) (hframe : SameExcept [.dt, .st, .schedule] s₀ s) :
    ∃ t, Sys2Proof.core.run n s = .next t ∧ t.dt.toNat = s.dt.toNat - n ∧ t.st.toNat = s.st.toNat - n ∧
      t.schedule = s.schedule.ahead n ∧ SameExcept [.dt, .st, .schedule] s₀ t := by
  induction n generalizing s with
  | zero => exact ⟨s, rfl, rfl, rfl, rfl, hframe⟩
  | succ n ih =>
    have hfirst : s.schedule.next = .tick := h 0 (by omega)
    obtain ⟨u, hu, hdt, hst, hschedule, hframe⟩ := step_tick_spec hfirst hon hframe
    obtain ⟨hrs, hconfig⟩ := step_tick_rs_config hfirst hu
    have hrest : ∀ k, k < n → (u.schedule.ahead k).next = .tick := fun k hk => by
      rw [hschedule]; exact h (k + 1) (by omega)
    obtain ⟨t, ht, htdt, htst, htschedule, hframe⟩ := ih hrest (by rw [hrs, hconfig]; exact hon) hframe
    refine ⟨t, (core_run_succ (M := Sys2Proof.core) hu).trans ht, by omega, by omega, ?_, hframe⟩
    rw [htschedule, hschedule, Schedule.ahead_succ]

/-- Settles O47, by induction on the number of ticks. -/
theorem timersAfterManyTicks : Obligations.TimersAfterManyTicks := fun n s h hon =>
  run_ticks_spec n h hon (SameExcept.refl _ s)

/-! ### Key events (R216) -/

theorem State.setKey_keys_same (s : State) (k : Key) (b : Bool) : (s.setKey k b).keys[k] = b := by simp

theorem State.setKey_keys_other (s : State) {k j : Key} (b : Bool) (h : j ≠ k) : (s.setKey k b).keys[j] = s.keys[j] := by
  simp [Fin.val_inj, Ne.symm h]

/-- A key write after the step is taken off the schedule: the key has its level, and nothing else changes. -/
theorem State.setKey_afterHead_spec (s : State) (k : Key) (b : Bool) :
    (s.afterHead.setKey k b).keys[k] = b ∧ (∀ j : Key, j ≠ k → (s.afterHead.setKey k b).keys[j] = s.keys[j]) ∧
      (s.afterHead.setKey k b).schedule = s.schedule.rest ∧
      SameExcept [.keys, .schedule] s (s.afterHead.setKey k b) :=
  ⟨s.afterHead.setKey_keys_same k b, fun _ hj => s.afterHead.setKey_keys_other b hj, rfl,
    ((SameExcept.refl _ s).afterHead (by decide)).setKey (by decide) k b⟩

/-- Settles O48: outside the wait a key event is one write of its key. -/
theorem keyEventsSetTheKeypad : Obligations.KeyEventsSetTheKeypad := by
  intro s k
  constructor
  · intro h
    exact ⟨s.afterHead.setKey k false, by rw [step_eq, h]; rfl, s.setKey_afterHead_spec k false⟩
  · intro h hwait
    have hdown : s.afterHead.keyDown k = s.afterHead.setKey k true := State.keyDown_of_ne (s := s.afterHead) hwait k
    exact ⟨s.afterHead.setKey k true, by rw [step_eq, h, ← hdown]; rfl, s.setKey_afterHead_spec k true⟩

theorem SameExcept.setRs {l : List Piece} {s t : State} (h : SameExcept l s t) (hl : .rs ∈ l) (r : RunState) :
    SameExcept l s (t.setRs r) := by
  simpa [SameExcept, hl, State.byteAt] using h

theorem SameExcept.completeWait {l : List Piece} {s t : State} (h : SameExcept l s t) (hv : .v ∈ l) (hpc : .pc ∈ l)
    (hrs : .rs ∈ l) (x : Reg) (r : Resume) (k : Key) : SameExcept l s (t.completeWait x r k) :=
  ((h.setV hv x _).advance hpc).setRs hrs _

theorem keyByte_toNat (k : Key) : (BitVec.ofNat 8 k.val : Byte).toNat = k.val := by
  rw [BitVec.toNat_ofNat]; omega

/-- Settles O40: the key is written, and the completion writes the register, the `PC` and the run state. -/
theorem keyDownCompletesTheWait : Obligations.KeyDownCompletesTheWait := by
  intro s x r k hs h
  have hdown : s.afterHead.keyDown k = (s.afterHead.setKey k true).completeWait x r k :=
    State.keyDown_of_awaitingKey (s := s.afterHead) hs k
  obtain ⟨hkey, hother, hschedule, -⟩ := s.setKey_afterHead_spec k true
  obtain ⟨hx, hregs, hpc, -⟩ := (s.afterHead.setKey k true).setV_advance_spec x (BitVec.ofNat 8 k.val)
  refine ⟨(s.afterHead.setKey k true).completeWait x r k, by rw [step_eq, h, ← hdown]; rfl, ?_, hregs, hpc, hkey, hother,
    fun hr => by rw [State.completeWait_rs, hr]; rfl, fun hr => by rw [State.completeWait_rs, hr]; rfl, hschedule, ?_⟩
  · exact (congrArg BitVec.toNat hx).trans (keyByte_toNat k)
  · exact (((SameExcept.refl _ s).afterHead (by decide)).setKey (by decide) k true).completeWait (by decide) (by decide)
      (by decide) x r k

/-! ### Commands and construction (R227, R229, R251, R255) -/

/-- Settles O49: a command writes the run state that the table gives. -/
theorem commandsFollowTheTransitionTable : Obligations.CommandsFollowTheTransitionTable := by
  intro s c h hc
  refine ⟨s.afterHead.setRs (c.runState s.rs), ?_, rfl,
    ((SameExcept.refl _ s).afterHead (by decide)).setRs (by decide) _, ?_⟩
  · rw [step_eq, h]
    exact congrArg _ (s.afterHead.command_eq hc)
  · rw [State.setRs_rs]; rfl

/-- Settles O50: `restart` is the state of construction, but for the draws and the schedule. -/
theorem restartRebuildsTheMachine : Obligations.RestartRebuildsTheMachine := by
  intro s h
  refine ⟨s.afterHead.restart, by rw [step_eq, h]; rfl, rfl, rfl, rfl, rfl, fun a => rfl, ?_⟩
  simp [SameExcept, State.restart, State.byteAt]

theorem State.initial_byteAt (c : Config) (a : Nat) : (State.initial c).byteAt a = resetByte c a := rfl

theorem imageOk_iff (c : Config) :
    c.imageOk = true ↔ c.image.length % 2 = 0 ∧ c.loadBase.addr + c.image.length ≤ 4096 := by
  simp [Config.imageOk, Config.imageEven, Config.imageFits]

theorem parametersOk_iff (c : Config) : c.parametersOk = true ↔ c.fontBase + 80 ≤ 0x200 ∧ 0 < c.cpuRate := by
  simp [Config.parametersOk, Config.fontFits, Config.ratePositive]

/-- Settles O51: a font below 0x200 lies below the image. -/
theorem resetStateTheSourceFixes : Obligations.ResetStateTheSourceFixes := by
  intro c hc
  obtain ⟨-, hparams⟩ := Bool.and_eq_true_iff.mp hc
  obtain ⟨hfont, -⟩ := (parametersOk_iff c).mp hparams
  have hbase : 0x200 ≤ c.loadBase.addr := by cases c.loadBase <;> decide
  refine ⟨State.initial_pc_toNat c, rfl, fun k => ?_, fun k hk => ?_, Framebuffer.pixel_blank⟩
  · rw [State.initial_byteAt, resetByte, dif_pos ⟨by omega, by omega⟩]
    simp
  · rw [State.initial_byteAt, resetByte_eq _ (by omega), if_pos (by omega)]
    simp [hk]

/-- Settles O52: the state of construction holds these values, and an unlisted byte is the reset byte. -/
theorem resetValuesTheSpecDecides : Obligations.ResetValuesTheSpecDecides := by
  intro c
  refine ⟨fun x => by simp [State.readV, State.initial], rfl, fun k => by simp [State.initial], rfl, rfl,
    fun k => by simp [State.initial], rfl, fun a hfont himage => ?_⟩
  rw [State.initial_byteAt, resetByte_eq a (by omega)]
  split
  · rw [List.getElem?_eq_none (by omega)]; rfl
  · rfl

/-- Settles O53: the two checks of `load`, in numbers. -/
theorem loadAcceptsExactlyTheWellFormed : Obligations.LoadAcceptsExactlyTheWellFormed := by
  intro c
  have himage := imageOk_iff c
  have hparams := parametersOk_iff c
  refine ⟨fun heven hfits hfont hrate => ?_, fun hbad => ?_, fun heven hfits hbad => ?_⟩ <;> unfold load
  · rw [if_pos (himage.mpr ⟨heven, hfits⟩), if_pos (hparams.mpr ⟨hfont, hrate⟩)]
  · exact if_neg (by rw [himage]; omega)
  · rw [if_pos (himage.mpr ⟨heven, hfits⟩)]
    exact if_neg (by rw [hparams]; omega)

/-! ### Outputs (R215, R222, R223) -/

theorem State.bytesAt_getElem? (s : State) {a n k : Nat} (h : k < n) : (s.bytesAt a n)[k]? = some (s.byteAt (a + k)) := by
  have hk : k < (s.bytesAt a n).length := by rw [State.bytesAt, Memory.readBytes_length]; exact h
  rw [List.getElem?_eq_getElem hk]
  exact congrArg some (Memory.readBytes_getElem s.mem a n k hk)

/-- Settles O56: each output is a field, and the snapshot's memory is read byte by byte. -/
theorem outputsReadTheState : Obligations.OutputsReadTheState := by
  intro s
  refine ⟨decide_eq_true_iff, fun p => rfl, fun x => rfl, rfl, rfl, rfl, fun k => rfl, Memory.readBytes_length _ _ _,
    fun a ha => ?_, rfl, rfl, fun k => rfl, rfl, rfl⟩
  exact (s.bytesAt_getElem? ha).trans (by rw [Nat.zero_add])

end Sys2Proof.Machine

namespace Sys2Proof.Machine

/-! ### RET, CALL and BNNN (R101, R103, R104) -/

theorem State.exec_ret {s : State} (h : s.sp.val ≠ 0) : exec .ret s = .next (s.pop.setPc s.top) :=
  if_neg (by rw [State.stackEmpty, beq_iff_eq]; exact h)

theorem State.exec_call {s : State} (nnn : Addr) (h : s.sp.val < 16) :
    exec (.call nnn) s = .next ((s.push s.next).setPc (zextAddr nnn)) :=
  if_neg (by rw [State.stackFull, beq_iff_eq]; omega)

/-- The most recent entry, at a depth written as a successor. -/
theorem State.top_eq {s : State} {k : Fin 16} (h : s.sp.val = k.val + 1) : s.top = s.stack[k] := by
  simp [State.top, h]

theorem SameExcept.pop {l : List Piece} {s t : State} (h : SameExcept l s t) (hl : .sp ∈ l) : SameExcept l s t.pop := by
  simpa [SameExcept, hl, State.byteAt] using h

theorem SameExcept.push {l : List Piece} {s t : State} (h : SameExcept l s t) (hsp : .sp ∈ l) (hstack : .stack ∈ l)
    (w : Word) : SameExcept l s (t.push w) := by
  simpa [SameExcept, hsp, hstack, State.byteAt] using h

/-- Settles O14: the pop and the write of the `PC`, or the raise on an empty stack. -/
theorem retPopsIntoPcOrUnderflows : Obligations.RetPopsIntoPcOrUnderflows := by
  refine ⟨fun s k hk => ?_, fun s h0 => if_pos (beq_iff_eq.mpr h0)⟩
  refine ⟨s.pop.setPc s.top, State.exec_ret (by omega), ?_, State.top_eq hk,
    ((SameExcept.refl _ s).pop (by decide)).setPc (by decide) _⟩
  simp [hk]

/-- Settles O16: the push and the write of the `PC`, or the raise on a full stack. -/
theorem callPushesNextOrOverflows : Obligations.CallPushesNextOrOverflows := by
  refine ⟨fun nnn s hlt => ?_, fun nnn s h16 => if_pos (beq_iff_eq.mpr h16)⟩
  refine ⟨(s.push s.next).setPc (zextAddr nnn), State.exec_call nnn hlt, State.push_sp hlt _, fun k hk => ?_,
    fun k hk => (State.push_stack hlt _ k).trans (if_neg hk), zextAddr_toNat nnn,
    ((SameExcept.refl _ s).push (by decide) (by decide) _).setPc (by decide) _⟩
  exact (congrArg BitVec.toNat ((State.push_stack hlt _ k).trans (if_pos hk))).trans (BitVec.toNat_add s.pc 2)

/-- Settles O17: the RET pops the entry that the CALL pushed. -/
theorem callThenRetComesBack : Obligations.CallThenRetComesBack := by
  intro nnn s t u hlt hcall hsp hstack
  cases (State.exec_call nnn hlt).symm.trans hcall
  have hdepth : u.sp.val = s.sp.val + 1 := by rw [hsp]; exact State.push_sp hlt _
  have htop : u.top = s.next := by
    rw [State.top_eq (k := ⟨s.sp.val, hlt⟩) hdepth]
    simp only [hstack]
    exact (State.push_stack hlt _ _).trans (if_pos rfl)
  refine ⟨u.pop.setPc u.top, State.exec_ret (by omega), ?_, Fin.ext (by simp [hdepth])⟩
  rw [PcNext, State.setPc_pc, htop]
  exact BitVec.toNat_add s.pc 2

theorem topNibble_val (nnn : Addr) : (topNibble nnn).val = nnn.toNat / 256 := by
  have := nnn.isLt
  simp [topNibble, Nat.shiftRight_eq_div_pow]
  omega

/-- The sum of an address and a byte fits into a word. -/
theorem zextAddr_add_zextByte_toNat (nnn : Addr) (b : Byte) : (zextAddr nnn + zextByte b).toNat = nnn.toNat + b.toNat := by
  rw [BitVec.toNat_add, zextAddr_toNat, zextByte_toNat]; omega

/-- Settles O18: the quirk selects the register, and the sum stays below 65536. -/
theorem jpOffsetAddsTheSelectedRegister : Obligations.JpOffsetAddsTheSelectedRegister := by
  intro nnn s
  refine ⟨s.setPc (zextAddr nnn + zextByte (s.jumpOffset nnn)), rfl, fun hq => ?_, fun hq x hx => ?_,
    (SameExcept.refl _ s).setPc (by decide) _⟩ <;>
    rw [State.setPc_pc, zextAddr_add_zextByte_toNat, State.jumpOffset, hq]
  rw [show topNibble nnn = x from Fin.ext ((topNibble_val nnn).trans hx.symm)]

/-! ### Arithmetic and logic on two registers (R122 to R132) -/

/-- Settles O23: each of the four writes one byte, given bit by bit. -/
theorem copyAndLogicWriteOnlyTheDestination : Obligations.CopyAndLogicWriteOnlyTheDestination := by
  intro x y s
  obtain ⟨hor, hframeOr⟩ := s.setV_advance_spec x (s.readV x ||| s.readV y)
  obtain ⟨hand, hframeAnd⟩ := s.setV_advance_spec x (s.readV x &&& s.readV y)
  obtain ⟨hxor, hframeXor⟩ := s.setV_advance_spec x (s.readV x ^^^ s.readV y)
  refine ⟨⟨_, rfl, s.setV_advance_spec x (s.readV y)⟩, ⟨_, rfl, fun b => ?_, hframeOr⟩, ⟨_, rfl, fun b => ?_, hframeAnd⟩,
    ⟨_, rfl, fun b => ?_, hframeXor⟩⟩
  · rw [hor, BitVec.getLsbD_or, Bool.or_eq_true]
  · rw [hand, BitVec.getLsbD_and, Bool.and_eq_true]
  · rw [hxor, BitVec.getLsbD_xor, bne_iff_ne, Ne, Bool.eq_iff_iff]

theorem SameExcept.setResultFlag {l : List Piece} {s t : State} (h : SameExcept l s t) (hl : .v ∈ l) (x : Reg) (b : Byte)
    (f : Bool) : SameExcept l s (t.setResultFlag x b f) :=
  (h.setV hl x b).setV hl regVF _

theorem flagByte_toNat (f : Bool) : (flagByte f).toNat = if f then 1 else 0 := by
  cases f <;> rfl

/-- An instruction that writes its result and then its flag, and goes on (R132). -/
theorem State.setResultFlag_advance_spec (s : State) (x : Reg) {b : Byte} {result : Nat} (hb : b.toNat = result)
    {f : Bool} {flag : Prop} (hf : f = true ↔ flag) :
    ResultThenFlag x result flag s (s.setResultFlag x b f).advance ∧ PcNext s (s.setResultFlag x b f).advance ∧
      SameExcept [.v, .pc] s (s.setResultFlag x b f).advance := by
  have hread : ∀ j, (s.setResultFlag x b f).advance.readV j = if j = 15 then flagByte f else if j = x then b else s.readV j :=
    fun j => s.readV_setResultFlag x j b f
  refine ⟨⟨⟨fun h => ?_, fun h => ?_⟩, fun hx => ?_, fun j hj hjx => ?_⟩, State.pcNext_advance (s.setResultFlag_pc x b f),
    ((SameExcept.refl _ s).setResultFlag (by decide) x b f).advance (by decide)⟩ <;> rw [hread]
  · rw [if_pos rfl, flagByte_toNat, if_pos (hf.mpr h)]
  · rw [if_pos rfl, flagByte_toNat, if_neg (mt hf.mp h)]
  · rw [if_neg hx, if_pos rfl, hb]
  · rw [if_neg hj, if_neg hjx]

/-- Settles O24: the sum of two bytes is the sum of their values modulo 256. -/
theorem addWritesSumThenCarry : Obligations.AddWritesSumThenCarry := fun x y s =>
  ⟨_, rfl, s.setResultFlag_advance_spec x (BitVec.toNat_add (s.readV x) (s.readV y)) decide_eq_true_iff⟩

theorem sub_toNat (a b : Byte) : (a - b).toNat = (a.toNat + 256 - b.toNat) % 256 := by
  rw [BitVec.toNat_sub]; omega

/-- Settles O25: the difference of two bytes is that of their values modulo 256. -/
theorem subWritesDifferenceThenNoBorrow : Obligations.SubWritesDifferenceThenNoBorrow := fun x y s =>
  ⟨_, rfl, s.setResultFlag_advance_spec x (sub_toNat (s.readV x) (s.readV y)) decide_eq_true_iff⟩

/-- Settles O26: as for 8XY5, with the operands exchanged. -/
theorem subnWritesReverseDifferenceThenNoBorrow : Obligations.SubnWritesReverseDifferenceThenNoBorrow := fun x y s =>
  ⟨_, rfl, s.setResultFlag_advance_spec x (sub_toNat (s.readV y) (s.readV x)) decide_eq_true_iff⟩

theorem State.shiftSource_eq (s : State) (x y : Reg) :
    s.shiftSource x y = s.readV (if s.config.shiftSrc = .vx then x else y) := by
  unfold State.shiftSource
  split <;> simp [*]

theorem shiftRight_toNat (b : Byte) : (b >>> 1).toNat = b.toNat / 2 := by
  simp [Nat.shiftRight_eq_div_pow]

theorem shiftLeft_toNat (b : Byte) : (b <<< 1).toNat = b.toNat * 2 % 256 := by
  simp [Nat.shiftLeft_eq]

theorem shiftedOutRight_iff (b : Byte) : shiftedOutRight b = true ↔ b.toNat % 2 = 1 := by
  simp [shiftedOutRight, BitVec.getLsbD, Nat.testBit_zero]

theorem shiftedOutLeft_iff (b : Byte) : shiftedOutLeft b = true ↔ b.toNat ≥ 128 := by
  have := b.isLt
  simp only [shiftedOutLeft, BitVec.getLsbD, Nat.testBit_eq_decide_div_mod_eq, decide_eq_true_eq]
  omega

/-- Settles O27: the quirk selects the source, whose dropped bit is its parity or its top half. -/
theorem shiftsWriteResultThenBitShiftedOut : Obligations.ShiftsWriteResultThenBitShiftedOut := by
  intro x y src s hsrc
  have hsource : s.shiftSource x y = s.readV src := by rw [State.shiftSource_eq, hsrc]
  refine ⟨⟨_, rfl, s.setResultFlag_advance_spec x ?_ ?_⟩, ⟨_, rfl, s.setResultFlag_advance_spec x ?_ ?_⟩⟩ <;> rw [hsource]
  · exact shiftRight_toNat _
  · exact shiftedOutRight_iff _
  · exact shiftLeft_toNat _
  · exact shiftedOutLeft_iff _

/-! ### Index writes (R141, R145) -/

theorem lowNibble_val (b : Byte) : (lowNibble b).val = b.toNat % 16 := by
  simp [lowNibble]

/-- Settles O29: FX1E's sum is modulo 65536, and a font in range has every digit's address below it. -/
theorem addIAndLdFWriteOnlyTheIndex : Obligations.AddIAndLdFWriteOnlyTheIndex := by
  intro x s
  obtain ⟨hadd, hframeAdd⟩ := s.setIndex_advance_spec (s.index + zextByte (s.readV x))
  obtain ⟨hfont, hframeFont⟩ := s.setIndex_advance_spec (s.fontAddress (lowNibble (s.readV x)))
  refine ⟨⟨_, rfl, ?_, hframeAdd⟩, ⟨_, rfl, fun hbase => ?_, hframeFont⟩⟩
  · rw [hadd, BitVec.toNat_add, zextByte_toNat]
  · rw [hfont, State.fontAddress, BitVec.toNat_ofNat, lowNibble_val]; omega

/-! ### Loads and stores (R142 to R144, R58) -/

theorem State.withRange_of_le {s : State} {n : Nat} (h : s.index.toNat + n ≤ 4096) (act : Result) :
    s.withRange n act = act :=
  if_pos ((s.rangeOk_iff n).mpr (.inr h))

theorem State.withRange_of_gt {s : State} {n : Nat} (hn : 0 < n) (h : 4096 < s.index.toNat + n) (act : Result) :
    s.withRange n act = .next (s.setRs (.halted (.addressOutOfRange s.pc s.lowestOffending))) :=
  if_neg (by rw [State.rangeOk_iff]; omega)

/-- Settles O33: the guard fails, and raising changes the run state alone. -/
theorem accessAbove0xFFFHaltsBeforeAnyEffect : Obligations.AccessAbove0xFFFHaltsBeforeAnyEffect := by
  intro x y n s
  refine ⟨s.lowestOffending, s.lowestOffending_toNat, fun h => ?_, fun h => ⟨?_, ?_⟩, fun hn h => ?_⟩
  · exact State.withRange_of_gt (by omega) (by omega) _
  · exact State.withRange_of_gt (by omega) (by omega) _
  · exact State.withRange_of_gt (by omega) (by omega) _
  · exact State.withRange_of_gt hn (by omega) _

theorem SameExcept.storeBytes {l : List Piece} {s t : State} (h : SameExcept l s t) (hl : .mem ∈ l) (a : Nat)
    (bs : List Byte) : SameExcept l s (t.storeBytes a bs) := by
  simpa [SameExcept, hl] using h

theorem SameExcept.loadRegisterBlock {l : List Piece} {s t : State} (h : SameExcept l s t) (hl : .v ∈ l) (x : Reg) :
    SameExcept l s (t.loadRegisterBlock x) := by
  simpa [SameExcept, hl, State.byteAt] using h

/-- Settles O30: the three digits are read back from the three bytes at `I`. -/
theorem ldBStoresTheDecimalDigits : Obligations.LdBStoresTheDecimalDigits := by
  intro x s hle hmem
  have hin : ∀ k (hk : k < 3), (s.storeBytes s.index.toNat (decimalDigits (s.readV x))).byteAt (s.index.toNat + k) =
      (decimalDigits (s.readV x))[k] := fun k hk =>
    State.byteAt_storeBytes_inside _ _ hmem (by rw [decimalDigits_length]; omega) hk
  have hv := (s.readV x).isLt
  refine ⟨_, State.withRange_of_le (by omega) _, ?_, ?_, ?_, fun a ha => ?_, State.pcNext_advance rfl,
    ((SameExcept.refl _ s).storeBytes (by decide) _ _).advance (by decide)⟩
  · refine (congrArg BitVec.toNat (hin 0 (by omega))).trans ?_
    simp [decimalDigits]; omega
  · refine (congrArg BitVec.toNat (hin 1 (by omega))).trans ?_
    simp [decimalDigits]; omega
  · refine (congrArg BitVec.toNat (hin 2 (by omega))).trans ?_
    simp [decimalDigits]; omega
  · exact s.byteAt_storeBytes_outside _ _ (by rw [decimalDigits_length]; omega)

theorem State.registerBlock_getElem (s : State) (x k : Reg) (h : k.val < (s.registerBlock x).length) :
    (s.registerBlock x)[k.val] = s.readV k := by
  simp [State.registerBlock, State.readV]

theorem State.indexAfterBlock_toNat {s : State} (h : s.config.loadStoreInc = true) (x : Reg) :
    (s.indexAfterBlock x).toNat = (s.index.toNat + x.val + 1) % 65536 := by
  rw [State.indexAfterBlock, if_pos h, BitVec.toNat_add, BitVec.toNat_ofNat]; omega

theorem State.indexAfterBlock_of_false {s : State} (h : s.config.loadStoreInc = false) (x : Reg) :
    s.indexAfterBlock x = s.index :=
  if_neg (by rw [h]; decide)

/-- The state after FX55 on a block within the memory. -/
theorem State.exec_stRegs {s : State} {x : Reg} (h : s.index.toNat + x.val ≤ 0xFFF) :
    exec (.stRegs x) s =
      .next ((s.storeBytes s.index.toNat (s.registerBlock x)).setIndex (s.indexAfterBlock x)).advance :=
  State.withRange_of_le (by omega) _

/-- The registers that FX55 stores are read back from their bytes. -/
theorem State.byteAt_registerBlock {s : State} {x k : Reg} (hmem : s.MemoryCanonical)
    (h : s.index.toNat + x.val ≤ 0xFFF) (hk : k.val ≤ x.val) :
    (s.storeBytes s.index.toNat (s.registerBlock x)).byteAt (s.index.toNat + k.val) = s.readV k := by
  have hlen := s.registerBlock_length x
  rw [State.byteAt_storeBytes_inside _ _ hmem (by omega) (by omega), State.registerBlock_getElem]

theorem State.byteAt_setIndex_advance (s : State) (w : Word) (a : Nat) :
    (s.setIndex w).advance.byteAt a = s.byteAt a :=
  State.byteAt_congr (State.advance_config _) (State.advance_mem _) a

/-- Settles O31: the block is read back, the other bytes are outside it, and the quirk moves `I`. -/
theorem stRegsStoresTheBlock : Obligations.StRegsStoresTheBlock := by
  intro x s hle hmem
  have hlen := s.registerBlock_length x
  refine ⟨_, State.exec_stRegs hle, fun k hk => ?_, fun a ha => ?_, fun hq => ?_, fun hq => ?_, ?_, ?_⟩
  · rw [State.byteAt_setIndex_advance]
    exact State.byteAt_registerBlock hmem hle hk
  · rw [State.byteAt_setIndex_advance]
    exact s.byteAt_storeBytes_outside _ _ (by omega)
  · exact State.indexAfterBlock_toNat hq x
  · exact State.indexAfterBlock_of_false hq x
  · exact State.pcNext_advance rfl
  · exact (((SameExcept.refl _ s).storeBytes (by decide) _ _).setIndex (by decide) _).advance (by decide)

theorem State.readV_setIndex_advance (s : State) (w : Word) (k : Reg) : (s.setIndex w).advance.readV k = s.readV k := rfl

/-- Settles O32: the loaded registers are those up to `x`, and the quirk moves `I`. -/
theorem ldRegsLoadsTheBlock : Obligations.LdRegsLoadsTheBlock := by
  intro x s hle
  refine ⟨((s.loadRegisterBlock x).setIndex (s.indexAfterBlock x)).advance, State.withRange_of_le (by omega) _,
    fun k hk => ?_, fun k hk => ?_, fun hq => ?_, fun hq => ?_, ?_, ?_⟩
  · rw [State.readV_setIndex_advance, State.readV_loadRegisterBlock, if_pos (Fin.le_def.mpr hk)]
  · rw [State.readV_setIndex_advance, State.readV_loadRegisterBlock, if_neg (Fin.not_le.mpr hk)]
  · exact State.indexAfterBlock_toNat hq x
  · exact State.indexAfterBlock_of_false hq x
  · exact State.pcNext_advance (by rw [State.setIndex_pc, State.loadRegisterBlock_pc])
  · exact (((SameExcept.refl _ s).loadRegisterBlock (by decide) x).setIndex (by decide) _).advance (by decide)

/-- Settles O34: the fetch at `next` reads the two stored bytes. -/
theorem storeIntoCodeIsSeenByTheNextFetch : Obligations.StoreIntoCodeIsSeenByTheNextFetch := by
  intro x k l s hle hmem hl hlx hpc
  refine ⟨_, State.exec_stRegs hle, ?_⟩
  have hnext : (s.pc + 2).toNat = s.index.toNat + k.val := by
    rw [BitVec.toNat_add]; simp only [BitVec.reduceToNat]; omega
  have hpcle : (s.pc + 2).toNat ≤ 0xFFE := by omega
  refine (State.fetch_of_le hpcle).trans ?_
  rw [State.wordAt, State.byteAt_setIndex_advance, State.byteAt_setIndex_advance]
  simp only [State.advance_pc, State.setIndex_pc, State.storeBytes_pc, hnext]
  rw [Nat.add_assoc, ← hl, State.byteAt_registerBlock hmem hle (by omega), State.byteAt_registerBlock hmem hle hlx]

/-! ### Random numbers and the keypad (R151, R160 to R163) -/

theorem SameExcept.countDraw {l : List Piece} {s t : State} (h : SameExcept l s t) (hl : .draws ∈ l) :
    SameExcept l s t.countDraw := by
  simpa [SameExcept, hl, State.byteAt] using h

/-- Settles O35: the byte written is the drawn one masked by the old register, so it has only bits of that. -/
theorem rndMasksWithTheRegister : Obligations.RndMasksWithTheRegister := by
  intro x nn s
  obtain ⟨hx, hother, hpc, -⟩ := s.countDraw.setV_advance_spec x (s.drawnByte &&& s.readV x)
  refine ⟨(s.countDraw.setV x (s.drawnByte &&& s.readV x)).advance, rfl, hx, rfl, fun _ => rfl, fun b hb => ?_, hother, hpc,
    (((SameExcept.refl _ s).countDraw (by decide)).setV (by decide) x _).advance (by decide)⟩
  rw [hx, BitVec.getLsbD_and, Bool.and_eq_true] at hb
  exact hb.2

/-- Settles O38: the low nibble names the key, whose level is the skip's condition. -/
theorem skipsTestTheNamedKey : Obligations.SkipsTestTheNamedKey := by
  intro x s k hk
  have hkey : lowNibble (s.readV x) = k := Fin.ext ((lowNibble_val _).trans hk.symm)
  have hlevel : s.keyPressed (lowNibble (s.readV x)) = s.keys[k] := by rw [hkey]; rfl
  exact ⟨⟨_, rfl, s.skipIf_spec (by rw [hlevel])⟩, ⟨_, rfl, s.skipIf_spec (by rw [hlevel, Bool.not_eq_true'])⟩⟩

/-- Settles O39: the entry of the wait writes the run state, which remembers whether the machine ran. -/
theorem getKeyEntersTheWait : Obligations.GetKeyEntersTheWait := by
  intro x s
  refine ⟨s.setRs (.awaitingKey x s.resumeTarget), rfl, fun hr => ?_, fun hr => ?_,
    (SameExcept.refl _ s).setRs (by decide) _⟩ <;> rw [State.setRs_rs, State.resumeTarget]
  · rw [if_pos hr]
  · rw [if_neg hr]

end Sys2Proof.Machine

namespace Sys2Proof.Machine

/-! ### The pixels of a sprite (R156)

A sprite of at most 32 rows names no position twice, so that each flip meets the framebuffer as it was before the draw. -/

theorem flipPixels_pixel_mem {ps : List Pixel} (hps : ps.Nodup) (fb : Framebuffer) (b : Bool) {q : Pixel} (h : q ∈ ps) :
    Framebuffer.pixel (flipPixels fb b ps).1 q = !Framebuffer.pixel fb q := by
  induction ps generalizing fb b with
  | nil => cases h
  | cons p rest ih =>
    obtain ⟨hp, hrest⟩ := List.nodup_cons.mp hps
    unfold flipPixels
    obtain rfl | hq := List.mem_cons.mp h
    · rw [flipPixels_pixel_notMem rest _ _ hp, Framebuffer.pixel_flip_same]
    · have hne : q ≠ p := fun heq => hp (heq ▸ hq)
      rw [ih hrest _ _ hq, Framebuffer.pixel_flip_other fb hne]

theorem flipPixels_collided {ps : List Pixel} (hps : ps.Nodup) (fb : Framebuffer) (b : Bool) :
    (flipPixels fb b ps).2 = true ↔ b = true ∨ ∃ q ∈ ps, Framebuffer.pixel fb q = true := by
  induction ps generalizing fb b with
  | nil => simp [flipPixels]
  | cons p rest ih =>
    obtain ⟨hp, hrest⟩ := List.nodup_cons.mp hps
    have hsame : ∀ q ∈ rest, Framebuffer.pixel (Framebuffer.flip fb p) q = Framebuffer.pixel fb q := fun q hq =>
      Framebuffer.pixel_flip_other fb fun heq => hp (heq ▸ hq)
    have hexists : (∃ q ∈ rest, Framebuffer.pixel (Framebuffer.flip fb p) q = true) ↔
        ∃ q ∈ rest, Framebuffer.pixel fb q = true :=
      exists_congr fun q => and_congr_right fun hq => by rw [hsame q hq]
    rw [flipPixels, ih hrest, hexists, Bool.or_eq_true, List.exists_mem_cons_iff, or_assoc]

/-- Where two sprite pixels land on one position, they agree modulo the screen. -/
theorem PixelLandsAt.mod_eq {edge : DrawEdge} {py px py' px' : Nat} {p : Pixel} (h : PixelLandsAt edge py px p)
    (h' : PixelLandsAt edge py' px' p) : py % 32 = py' % 32 ∧ px % 64 = px' % 64 := by
  cases edge with
  | wrap =>
    obtain ⟨hr, hc⟩ := h.1 rfl
    obtain ⟨hr', hc'⟩ := h'.1 rfl
    omega
  | clip =>
    obtain ⟨hr, hc⟩ := h.2 rfl
    obtain ⟨hr', hc'⟩ := h'.2 rfl
    omega

theorem mem_rowPixels {edge : DrawEdge} {x0 py : Nat} {b : Byte} {p : Pixel} :
    p ∈ rowPixels edge x0 py b ↔ ∃ c, c < 8 ∧ b.getLsbD (7 - c) = true ∧ PixelLandsAt edge py (x0 + c) p := by
  have hcolumns : ∀ c, c ∈ [0, 1, 2, 3, 4, 5, 6, 7] ↔ c < 8 := fun c => by
    simp only [List.mem_cons, List.not_mem_nil, or_false]; omega
  simp only [rowPixels, List.mem_filterMap, hcolumns, Option.ite_none_right_eq_some, placePixel_eq_some_iff]

theorem rowPixels_nodup (edge : DrawEdge) (x0 py : Nat) (b : Byte) : (rowPixels edge x0 py b).Nodup := by
  have hcolumns : [0, 1, 2, 3, 4, 5, 6, 7].Pairwise fun c c' : Nat => c < c' ∧ c' < 8 := by decide
  refine List.pairwise_filterMap.mpr (hcolumns.imp fun {c c'} hc p hp p' hp' => ?_)
  rw [Option.ite_none_right_eq_some, placePixel_eq_some_iff] at hp hp'
  rintro rfl
  obtain ⟨-, hmod⟩ := hp.2.mod_eq hp'.2
  omega

theorem mem_spritePixels {edge : DrawEdge} {x0 y0 : Nat} {rows : List Byte} {p : Pixel} :
    p ∈ spritePixels edge x0 y0 rows ↔
      ∃ r c b, rows[r]? = some b ∧ c < 8 ∧ b.getLsbD (7 - c) = true ∧ PixelLandsAt edge (y0 + r) (x0 + c) p := by
  induction rows generalizing y0 with
  | nil => simp [spritePixels]
  | cons b rest ih =>
    rw [spritePixels, List.mem_append, mem_rowPixels, ih]
    constructor
    · rintro (⟨c, hc⟩ | ⟨r, c, b', hb, hc, hbit, hp⟩)
      · exact ⟨0, c, b, rfl, hc⟩
      · exact ⟨r + 1, c, b', hb, hc, hbit, by rwa [show y0 + (r + 1) = y0 + 1 + r by omega]⟩
    · rintro ⟨r, c, b', hb, hc, hbit, hp⟩
      cases r with
      | zero => cases hb; exact .inl ⟨c, hc, hbit, hp⟩
      | succ r => exact .inr ⟨r, c, b', hb, hc, hbit, by rwa [show y0 + 1 + r = y0 + (r + 1) by omega]⟩

theorem spritePixels_nodup (edge : DrawEdge) (x0 y0 : Nat) {rows : List Byte} (h : rows.length ≤ 32) :
    (spritePixels edge x0 y0 rows).Nodup := by
  induction rows generalizing y0 with
  | nil => exact List.nodup_nil
  | cons b rest ih =>
    rw [List.length_cons] at h
    rw [spritePixels, List.nodup_append']
    refine ⟨rowPixels_nodup edge x0 y0 b, ih _ (by omega), fun p hp hp' => ?_⟩
    obtain ⟨c, -, -, hland⟩ := mem_rowPixels.mp hp
    obtain ⟨r, c', b', hb, -, -, hland'⟩ := mem_spritePixels.mp hp'
    obtain ⟨hr, -⟩ := List.getElem?_eq_some_iff.mp hb
    obtain ⟨hmod, -⟩ := hland.mod_eq hland'
    omega

/-! ### The draw (R155 to R157) -/

/-- The positions that DXYN flips, in its order. -/
def State.drawnPixels (s : State) (x y : Reg) (n : Nat) : List Pixel :=
  spritePixels s.config.drawEdge (spriteColumn (s.readV x)) (spriteRow (s.readV y)) (s.bytesAt s.index.toNat n)

theorem State.drawn_eq (s : State) (x y : Reg) (n : Nat) :
    s.drawn x y n = flipPixels s.fb false (s.drawnPixels x y n) := rfl

theorem State.bytesAt_getElem?_iff (s : State) (a n k : Nat) (b : Byte) :
    (s.bytesAt a n)[k]? = some b ↔ k < n ∧ s.byteAt (a + k) = b := by
  by_cases hk : k < n
  · simp [s.bytesAt_getElem? hk, hk]
  · have hlen : (s.bytesAt a n).length ≤ k := by rw [State.bytesAt, Memory.readBytes_length]; omega
    simp [List.getElem?_eq_none hlen, hk]

theorem State.mem_drawnPixels {s : State} {x y : Reg} {n : Nat} {p : Pixel} :
    p ∈ s.drawnPixels x y n ↔ SpriteCovers s x y n p := by
  simp only [State.drawnPixels, mem_spritePixels, State.bytesAt_getElem?_iff, SpriteCovers, spriteColumn, spriteRow]
  constructor
  · rintro ⟨r, c, b, ⟨hr, rfl⟩, hc⟩
    exact ⟨r, c, hr, hc⟩
  · rintro ⟨r, c, hr, hc⟩
    exact ⟨r, c, _, ⟨hr, rfl⟩, hc⟩

theorem State.drawnPixels_nodup (s : State) (x y : Reg) (n : Nibble) : (s.drawnPixels x y n.toNat).Nodup :=
  spritePixels_nodup _ _ _ (by rw [State.bytesAt, Memory.readBytes_length]; omega)

/-- The state after DXYN on a sprite within the memory. -/
theorem State.exec_drw {s : State} {x y : Reg} {n : Nibble} (h : n.toNat = 0 ∨ s.index.toNat + n.toNat - 1 ≤ 0xFFF) :
    exec (.drw x y n) s = .next ((s.setFb (s.drawn x y n.toNat).1).setFlag (s.drawn x y n.toNat).2).advance :=
  if_pos ((s.rangeOk_iff _).mpr (by omega))

theorem State.drawn_collided_iff (s : State) (x y : Reg) (n : Nibble) :
    (s.drawn x y n.toNat).2 = true ↔ ∃ p, SpriteCovers s x y n.toNat p ∧ Framebuffer.pixel s.fb p = true := by
  rw [State.drawn_eq, flipPixels_collided (s.drawnPixels_nodup x y n)]
  simp [State.mem_drawnPixels]

theorem State.drawn_pixel_of_covers {s : State} {x y : Reg} {n : Nibble} {p : Pixel} (h : SpriteCovers s x y n.toNat p) :
    Framebuffer.pixel (s.drawn x y n.toNat).1 p = !Framebuffer.pixel s.fb p :=
  flipPixels_pixel_mem (s.drawnPixels_nodup x y n) _ _ (State.mem_drawnPixels.mpr h)

theorem State.drawn_pixel_of_not_covers {s : State} {x y : Reg} {n : Nibble} {p : Pixel}
    (h : ¬ SpriteCovers s x y n.toNat p) : Framebuffer.pixel (s.drawn x y n.toNat).1 p = Framebuffer.pixel s.fb p :=
  flipPixels_pixel_notMem _ _ _ (mt State.mem_drawnPixels.mp h)

/-- Settles O36: the flipped positions are those the sprite covers, each flipped once. -/
theorem drawXorsTheSpriteAndReportsCollision : Obligations.DrawXorsTheSpriteAndReportsCollision := by
  intro x y n s h
  have hflag := (s.setFb (s.drawn x y n.toNat).1).readV_setV_same 15 (flagByte (s.drawn x y n.toNat).2)
  refine ⟨_, State.exec_drw h, fun p hp => State.drawn_pixel_of_covers hp, fun p hp => State.drawn_pixel_of_not_covers hp,
    fun hc => ?_, fun hc => ?_, fun j hj => ?_, ?_, ?_⟩
  · refine (congrArg BitVec.toNat hflag).trans ?_
    rw [flagByte_toNat, if_pos ((s.drawn_collided_iff x y n).mpr hc)]
  · refine (congrArg BitVec.toNat hflag).trans ?_
    rw [flagByte_toNat, if_neg (mt (s.drawn_collided_iff x y n).mp hc)]
  · exact (s.setFb (s.drawn x y n.toNat).1).readV_setV_other _ hj
  · exact State.pcNext_advance (by rw [State.setFlag_pc, State.setFb_pc])
  · exact (((SameExcept.refl _ s).setFb (by decide) _).setV (by decide) _ _).advance (by decide)

/-- The covered positions depend on the configuration, the coordinates, `I` and the sprite bytes. -/
theorem SpriteCovers.congr {s u : State} {x y : Reg} {n : Nat} (hconfig : u.config = s.config) (hindex : u.index = s.index)
    (hx : u.readV x = s.readV x) (hy : u.readV y = s.readV y)
    (hbytes : ∀ r, r < n → u.byteAt (s.index.toNat + r) = s.byteAt (s.index.toNat + r)) (p : Pixel) :
    SpriteCovers u x y n p ↔ SpriteCovers s x y n p := by
  unfold SpriteCovers
  rw [hconfig, hindex, hx, hy]
  exact exists_congr fun r => exists_congr fun c => and_congr_right fun hr => by rw [hbytes r hr]

/-- Settles O37: both draws flip the same positions, so that the second meets at each the opposite of the first. -/
theorem twoIdenticalDrawsRestoreTheScreen : Obligations.TwoIdenticalDrawsRestoreTheScreen := by
  intro x y n s t u h ht hfb hconfig hindex hx hy hbytes
  have hcovers := SpriteCovers.congr hconfig hindex hx hy hbytes
  obtain ⟨t', ht', hcovered, hkept, -⟩ := drawXorsTheSpriteAndReportsCollision x y n s h
  cases ht.symm.trans ht'
  obtain ⟨w, hw, hcovered', hkept', hone, hzero, -⟩ :=
    drawXorsTheSpriteAndReportsCollision x y n u (by rw [hindex]; exact h)
  have hcollides : (∃ p, SpriteCovers u x y n.toNat p ∧ Framebuffer.pixel u.fb p = true) ↔
      ∃ p, SpriteCovers s x y n.toNat p ∧ Framebuffer.pixel s.fb p = false := by
    refine exists_congr fun p => ?_
    rw [hcovers p]
    exact and_congr_right fun hp => by rw [hfb, hcovered p hp, Bool.not_eq_true']
  rw [hcollides] at hone hzero
  refine ⟨w, hw, Framebuffer.ext_pixel fun p => ?_, fun h1 => ?_, hone⟩
  · by_cases hp : SpriteCovers s x y n.toNat p
    · rw [hcovered' p ((hcovers p).mpr hp), hfb, hcovered p hp, Bool.not_not]
    · rw [hkept' p (mt (hcovers p).mp hp), hfb, hkept p hp]
  · by_contra hno
    exact absurd (h1.symm.trans (hzero hno)) (by decide)

end Sys2Proof.Machine
